-- ==== Sys2Proof/Word.lean ====
section
/-! DEFINITION. The word types of the hardware (spec/00_scope.md R10: every value is unsigned, bit 0 is the
least significant bit) and the plainest arithmetic over them. -/

namespace Sys2Proof

/-- One byte: a packet byte, a command argument byte (R71, R73). -/
abbrev Byte := BitVec 8

/-- A 16-bit value: `PLEN`, `RESULT`, the CRC register (R31, R70, R103). -/
abbrev Half := BitVec 16

/-- The 24-bit packet header that ECC-6 protects (R14, R125). -/
abbrev Header := BitVec 24

/-- A 32-bit value: a command word, a register value, a byte offset (R9 `W`, R50, R51). -/
abbrev Word := BitVec 32

end Sys2Proof
end

