-- ==== Sys2Proof/Config.lean ====
section
/-! DEFINITION. The implementation parameters of spec/00_scope.md R9 and the free values (draws) of the
outside world. A parameter marked OPEN there is an `opaque` constant with no body: nothing can evaluate it, so a
claim holds for every value of it. Where R9 states a constraint, the parameter is built from an opaque
constant so that it meets the constraint by construction, and every value that R9 allows is so obtained (note 3). -/

namespace Sys2Proof

/-- The fourteen CONTROLLER registers the CORE writes (R9 `OFF_r`, R33). -/
inductive Reg where
  | dsiCtl | lpTx | dsiLaneCtl | dsiTickdiv | dsiGpio
  | hFrontPorch | hBackPorch | hActive | hTotal
  | vBackPorch | vFrontPorch | vActive | vTotal
  | timingCtl
  deriving DecidableEq, Repr

/-- The place of a register in the list of R9; it only tells the fourteen apart. -/
def Reg.index : Reg → Nat
  | .dsiCtl => 0 | .lpTx => 1 | .dsiLaneCtl => 2 | .dsiTickdiv => 3 | .dsiGpio => 4
  | .hFrontPorch => 5 | .hBackPorch => 6 | .hActive => 7 | .hTotal => 8
  | .vBackPorch => 9 | .vFrontPorch => 10 | .vActive => 11 | .vTotal => 12
  | .timingCtl => 13

/-- The fixed-duration waits a command performs (R9 `T_*`, R27 `cmd_delay`, R151). -/
inductive DelayTag where
  | avdd | rstAssert | rstRelease | clk | cmdDelay
  deriving DecidableEq, Repr

/-- PanelConfig, the record on the `CFG` input that BRING_UP latches (R27; widths are decision D15).
`name` and `pll` are not latched and reach nothing, so they are no field (R27, N13).
`cmd_delay` is "a duration" and no rule reads its value; it is counted in an unnamed unit (note 5). -/
structure PanelConfig where
  numLanes : Byte
  laneConfig : Word
  lpDivider : Word
  width : Half
  height : Half
  hFrontPorch : Half
  hBackPorch : Half
  vFrontPorch : Half
  vBackPorch : Half
  frameGap : Word
  cmdDelay : Nat
  deriving DecidableEq, Repr

namespace Config

/-! ## Parameters that are fixed by the source or decided -/

/-- `CLK_EN`, bit 0 of DSI_CTL (R9, R23). -/
def clkEn : Word := 0x00000001

/-- `LP_TX_MARKER` (R9, R80). -/
def lpTxMarker : Word := 0x00000100

/-- `LP_PREAMBLE` (R9, R82). -/
def lpPreamble : Byte := 0xE1

/-- `PAYLOAD_MAX` (R9, D14). -/
def payloadMax : Nat := 255

/-! ## OPEN parameters -/

/-- Fixes `OFF_r`: an unknown rearrangement of the word-aligned places of the register window. -/
opaque offsetPlace : Equiv.Perm (BitVec 30)

/-- `OFF_r`, the byte offset of register `r`: pairwise distinct multiples of 4 (R9, D5). -/
def off (r : Reg) : Word := offsetPlace (BitVec.ofNat 30 r.index) ++ 0#2

/-- The word-aligned place of the ready status (R9 `READY_OFF`, D6); it may be the place of a register. -/
opaque readyPlace : BitVec 30

/-- `READY_OFF`, a multiple of 4 (R9, D6). -/
def readyOff : Word := readyPlace ++ 0#2

/-- Fixes `READY_MASK`. -/
opaque readyMaskRaw : Word

/-- `READY_MASK`, nonzero (R9, D6). -/
def readyMask : Word := if readyMaskRaw = 0 then 1 else readyMaskRaw

/-- The place of the low-power-send bit, counted from bit 1 since bit 0 is CLK_EN (R9, D7). -/
opaque lpSendPlace : Fin 31

/-- `LP_SEND_MASK`: one-hot, bit 0 clear (R9, D7). -/
def lpSendMask : Word := 1#32 <<< (lpSendPlace.val + 1)

/-- Fixes `LANE_ENC`. -/
opaque laneEncRaw : Byte → Word

/-- `LANE_ENC(n)`: bits 7:0 zero, disjoint from `LP_SEND_MASK` (R9, D7, D8). -/
def laneEnc (n : Byte) : Word := laneEncRaw n &&& 0xFFFFFF00 &&& ~~~ lpSendMask

/-- `GPIO_AVDD_ON` (R9, D9). -/
opaque gpioAvddOn : Word

/-- `GPIO_RESET_ASSERT` (R9, D9). -/
opaque gpioResetAssert : Word

/-- `GPIO_RESET_RELEASE` (R9, D9). -/
opaque gpioResetRelease : Word

/-- `H_FP_FN` (R9, R162, D10). -/
opaque hFpFn : PanelConfig → Word

/-- `H_BP_FN` (R9, R162, D10). -/
opaque hBpFn : PanelConfig → Word

/-- `H_TOTAL_FN` (R9, R162, D10). -/
opaque hTotalFn : PanelConfig → Word

/-- Fixes `HS_TIMEOUT`: `some n` stands for the bound n + 1. -/
opaque hsTimeoutRaw : Option Nat

/-- `HS_TIMEOUT`: `none` (unbounded, the reference behaviour) or `some N` with N ≥ 1 (R9, D12). -/
def hsTimeout : Option Nat := hsTimeoutRaw.map (· + 1)

/-- `T_AVDD` (R9, D13). No rule reads a duration: the model counts no time (R239). -/
opaque tAvdd : Nat

/-- `T_RST_ASSERT` (R9, D13). -/
opaque tRstAssert : Nat

/-- `T_RST_RELEASE` (R9, D13). -/
opaque tRstRelease : Nat

/-- `T_CLK` (R9, D13). -/
opaque tClk : Nat

/-- The duration a wait names (R9, R27); nothing in the machine reads it (R239). -/
def duration (cfg : PanelConfig) : DelayTag → Nat
  | .avdd => tAvdd
  | .rstAssert => tRstAssert
  | .rstRelease => tRstRelease
  | .clk => tClk
  | .cmdDelay => cfg.cmdDelay

/-! ## Free values: what the outside world answers

Each is applied to the draw counter of `State`, so that each use is a fresh draw (R11, U2, U8). -/

/-- Whether the PORT answers `ok` (R11). -/
opaque portOk : Nat → Bool

/-- The value the CONTROLLER supplies to a read (R11, U2). -/
opaque readValue : Nat → Word

/-- How many steps the TIMER lets a wait go on before the step that completes it: a number, with no bound, so that every
wait completes (R239, R242, AP2; note 14). -/
opaque timerSteps : Nat → Nat

/-- What the target register of a failed or interrupted access holds afterwards (R58, R232, U8, U13). -/
opaque unknownReg : Nat → Word

end Config

end Sys2Proof
end

