-- ==== Sys2Proof/Machine/Bits.lean ====
section
/-! DEFINITION. The three pure functions of the CORE, REV8, ECC6 and CRC16 (spec/40_primitives.md), and the
header assembly of spec/41_packet_encoder.md R125. -/

namespace Sys2Proof.Machine

/-- REV8 (R100): bit i of the result is bit 7 - i of the operand. The first part written is the result's bit 7. -/
def rev8 (b : Byte) : Byte :=
  b.extractLsb' 0 1 ++ b.extractLsb' 1 1 ++ b.extractLsb' 2 1 ++ b.extractLsb' 3 1 ++
  b.extractLsb' 4 1 ++ b.extractLsb' 5 1 ++ b.extractLsb' 6 1 ++ b.extractLsb' 7 1

/-- `parity` of R101: true exactly when the number of ones is odd. -/
def parity (x : Header) : Bool :=
  (List.range 24).foldl (fun p i => p ^^ x.getLsbD i) false

/-- The masks M[0] to M[5] of R101, in the source's listing order. -/
def eccMasks : List Header := [0xF12CB7, 0xF2555B, 0x749A6D, 0xB8E38E, 0xDF03F0, 0xEFFC00]

/-- Bit i of ECC6: the parity of the header under mask i (R101, D16). -/
def eccBit (h : Header) (i : Nat) : Bool := parity (h &&& eccMasks.getD i 0)

/-- ECC6 (R101): the first part written is the result's bit 5. -/
def ecc6 (h : Header) : BitVec 6 :=
  BitVec.ofBool (eccBit h 5) ++ BitVec.ofBool (eccBit h 4) ++ BitVec.ofBool (eccBit h 3) ++
  BitVec.ofBool (eccBit h 2) ++ BitVec.ofBool (eccBit h 1) ++ BitVec.ofBool (eccBit h 0)

/-- One conditional right shift of the CRC loop (R103). -/
def crcShift (c : Half) : Half :=
  if c.getLsbD 0 then (c >>> 1) ^^^ 0x8408#16 else c >>> 1

/-- One byte of the CRC loop: XOR into the low end, then eight shifts (R103). -/
def crcByte (c : Half) (b : Byte) : Half :=
  Nat.iterate crcShift 8 (c ^^^ b.setWidth 16)

/-- CRC16 (R103): seed 0xFFFF, no final XOR. -/
def crc16 (p : List Byte) : Half := p.foldl crcByte 0xFFFF#16

/-- One shift of the bit-serial generator with input bit `d` (R104). -/
def crcSerialBit (c : Half) (d : Bool) : Half :=
  if (c.getLsbD 0 ^^ d) then (c >>> 1) ^^^ 0x8408#16 else c >>> 1

/-- The bits of a byte in the order the bit-serial generator takes them, least significant first (R104). -/
def bitsLsbFirst (b : Byte) : List Bool := (List.range 8).map b.getLsbD

/-- CRC16 by the bit-serial generator (R104). -/
def crc16Serial (p : List Byte) : Half :=
  (p.flatMap bitsLsbFirst).foldl crcSerialBit 0xFFFF#16

/-- `HDR(type, w0, w1)` (R125): type in bits 7:0, w0 in bits 15:8, w1 in bits 23:16. -/
def header (type w0 w1 : Byte) : Header :=
  type.setWidth 24 ||| (w0.setWidth 24 <<< 8) ||| (w1.setWidth 24 <<< 16)

/-- The ECC byte before reversal (R81): bits 7:6 are 0, bits 5:0 are the ECC. -/
def eccByte (h : Header) : Byte := (ecc6 h).setWidth 8

end Sys2Proof.Machine
end

