-- ==== Sys2Proof/Machine/Fields.lean ====
section
/-! DEFINITION. The fields of the 32-bit command word (spec/30_encoding.md R71) and the byte lists words are cut into. -/

namespace Sys2Proof.Machine

/-- `OP`, bits 3:0 (R71). -/
def opField (w : Word) : BitVec 4 := w.extractLsb' 0 4

/-- `RSV`, bits 7:4 (R71). -/
def rsvField (w : Word) : BitVec 4 := w.extractLsb' 4 4

/-- `A0`, bits 15:8 (R71). -/
def a0Field (w : Word) : Byte := w.extractLsb' 8 8

/-- `A1`, bits 23:16 (R71). -/
def a1Field (w : Word) : Byte := w.extractLsb' 16 8

/-- `A2`, bits 31:24 (R71). -/
def a2Field (w : Word) : Byte := w.extractLsb' 24 8

/-- `H` = CMD[31:8] = {A2, A1, A0}, the header operand of ECC6 (R71). -/
def hField (w : Word) : Header := w.extractLsb' 8 24

/-- The command word with argument bytes `a0`, `a1`, `a2` and low byte {RSV, OP} = `low` (R71). -/
def commandWord (a2 a1 a0 low : Byte) : Word := a2 ++ a1 ++ a0 ++ low

/-- The transmit word of wire byte `b`: `0x00000100 | zext_32(b)` (R80). -/
def txWord (b : Byte) : Word := 0x00000100#32 ||| b.setWidth 32

/-- A word as its four bytes, least significant first: bit 0 of the table's numbering is in the first byte. -/
def wordBytes (w : Word) : List Byte :=
  [w.extractLsb' 0 8, w.extractLsb' 8 8, w.extractLsb' 16 8, w.extractLsb' 24 8]

/-- The low byte of a 16-bit value (R54: sent first). -/
def loByte (c : Half) : Byte := c.extractLsb' 0 8

/-- The high byte of a 16-bit value (R54: sent second). -/
def hiByte (c : Half) : Byte := c.extractLsb' 8 8

end Sys2Proof.Machine
end

