-- ==== Sys2Proof/Machine/Operands.lean ====
section
/-! DEFINITION. The operands of the commands: the latched payload (spec/30_encoding.md R70, R73), the byte lists of the
packets (R78, R79; spec/41_packet_encoder.md R126 to R130), and the values BRING_UP writes to the timing registers
(spec/42_sequencer.md R162). -/

namespace Sys2Proof.Machine

/-- Byte i of the `PAYLOAD` input; bytes beyond those the list holds are 0 (note 10). -/
def payloadByte (buf : List Byte) (i : Nat) : Byte := buf.getD i 0

/-- The first `plen` bytes of the `PAYLOAD` input, which has `PAYLOAD_MAX` bytes (R70, R73). -/
def latchedPayload (plen : Half) (buf : List Byte) : List Byte :=
  (List.range (min plen.toNat Config.payloadMax)).map (payloadByte buf)

/-- The four header bytes after the preamble: REV8 of type, w0, w1 and the ECC byte (R78, R79, R126). -/
def headerBytes (type w0 w1 : Byte) : List Byte :=
  [rev8 type, rev8 w0, rev8 w1, rev8 (eccByte (header type w0 w1))]

/-- The byte list of a short packet (R78, R128). -/
def shortPacketBytes (type w0 w1 : Byte) : List Byte :=
  Config.lpPreamble :: headerBytes type w0 w1

/-- The packet type of a long packet: 0x39 for DCS, 0x29 for generic (R79, R129). -/
def longPacketType (isDcs : Bool) : Byte := if isDcs then 0x39 else 0x29

/-- The length byte of a long packet: `len(p)[7:0]` (R129). -/
def lengthLow (p : List Byte) : Byte := BitVec.ofNat 8 p.length

/-- The byte list of a long packet with transmitted checksum `c` (R79, R129). -/
def longPacketBytes (isDcs : Bool) (p : List Byte) (c : Half) : List Byte :=
  Config.lpPreamble :: headerBytes (longPacketType isDcs) (lengthLow p) 0x00
    ++ p.map rev8 ++ [rev8 (loByte c), rev8 (hiByte c)]

/-- The transmitted checksum of a long packet (R130). -/
def transmittedChecksum (crcReal : Bool) (p : List Byte) : Half :=
  if crcReal then crc16 p else 0x0000

/-- The value written to H_ACTIVE: `width * 3` (R162). -/
def hActiveValue (cfg : PanelConfig) : Word := cfg.width.setWidth 32 * 3

/-- The value written to V_BACK_PORCH (R162). -/
def vBackPorchValue (cfg : PanelConfig) : Word := cfg.vBackPorch.setWidth 32

/-- The value written to V_FRONT_PORCH: `v_back_porch + height` (R162; R164: preserved as the source computes it). -/
def vFrontPorchValue (cfg : PanelConfig) : Word := vBackPorchValue cfg + cfg.height.setWidth 32

/-- The value written to V_ACTIVE and to V_TOTAL: `v_back_porch + height + v_front_porch` (R162, R164). -/
def vActiveValue (cfg : PanelConfig) : Word := vFrontPorchValue cfg + cfg.vFrontPorch.setWidth 32

end Sys2Proof.Machine
end

