-- ==== Sys2Proof/Syntax.lean ====
section
/-! DEFINITION. The instructions: one constructor for each row of spec/opcode_table.json. The table holds the
HOST's commands (spec/30_encoding.md R72), their pseudo-instructions (R77), the illegal words (R75), and the items the
CORE emits (R78 to R82), which no command word selects: the CORE runs those as sub-programs (note 8). -/

namespace Sys2Proof

/-- The rows of spec/opcode_table.json, in its order. -/
inductive Instr where
  /-- REV8 (R100); `b` is A0. -/
  | rev8 (b : Byte)
  /-- ECC6 (R101); `h` is CMD[31:8]. -/
  | ecc6 (h : Header)
  /-- CRC16 (R103); the payload is sideband. -/
  | crc16
  /-- SEND_SHORT (R128). -/
  | sendShort (packetType w0 w1 : Byte)
  /-- SEND_LONG (R129); the payload is sideband. -/
  | sendLong (isDcs : Bool)
  /-- BRING_UP (R150); the PanelConfig is sideband. -/
  | bringUp
  /-- DCS_NOP = SEND_SHORT 0x05, 0x00, 0x00 (R77). -/
  | dcsNop
  /-- DCS_SLEEP_OUT = SEND_SHORT 0x15, 0x11, 0x00 (R77). -/
  | dcsSleepOut
  /-- DCS_DISPLAY_ON = SEND_SHORT 0x15, 0x29, 0x00 (R77). -/
  | dcsDisplayOn
  /-- DCS_EXIT_IDLE = SEND_SHORT 0x15, 0x38, 0x00 (R77). -/
  | dcsExitIdle
  /-- DCS_LONG [..] = SEND_LONG dcs, [..] (R77). -/
  | dcsLong
  /-- GEN_LONG [..] = SEND_LONG gen, [..] (R77). -/
  | genLong
  /-- ILLEGAL (R75): any word that matches no row of R72. -/
  | illegal (w : Word)
  /-- LP_TX_WORD (R80): the transmit word of wire byte `b`. -/
  | lpTxWord (b : Byte)
  /-- SHORT_PACKET (R78). -/
  | shortPacket (packetType w0 w1 : Byte)
  /-- LONG_PACKET (R79); `c` is the transmitted checksum. -/
  | longPacket (isDcs : Bool) (payload : List Byte) (c : Half)
  /-- LP_PREAMBLE, the byte 0xE1 (R82, R126). -/
  | lpPreamble
  /-- DT_DCS_SHORT_NOPARAM, the packet type 0x05 (R82). -/
  | dtDcsShortNoparam
  /-- DT_DCS_SHORT_WRITE, the packet type 0x15 (R82). -/
  | dtDcsShortWrite
  /-- DT_DCS_LONG_WRITE, the packet type 0x39 (R82). -/
  | dtDcsLongWrite
  /-- DT_GENERIC_LONG_WRITE, the packet type 0x29 (R82). -/
  | dtGenericLongWrite
  /-- DCS_CMD_NOP, the DCS command 0x00 (R82). -/
  | dcsCmdNop
  /-- DCS_CMD_SLEEP_OUT, the DCS command 0x11 (R82). -/
  | dcsCmdSleepOut
  /-- DCS_CMD_DISPLAY_ON, the DCS command 0x29 (R82). -/
  | dcsCmdDisplayOn
  /-- DCS_CMD_EXIT_IDLE_MODE, the DCS command 0x38 (R82). -/
  | dcsCmdExitIdleMode
  deriving DecidableEq, Repr

end Sys2Proof
end

