-- ==== Sys2Proof/WellFormed.lean ====
section
/-! DEFINITION. The checks on an instruction's operands. Only two rows have operands that the spec restricts: the
word of an ILLEGAL row must be illegal (spec/30_encoding.md R75), and a long packet carries at most 255 payload bytes
and the payload's CRC or zero (R79, R130). -/

namespace Sys2Proof

open Machine

/-- A nonzero "must be 0" argument field of R72, by `OP`. -/
def argumentsNotZero (w : Word) : Bool :=
  if opField w = 0x1 then a1Field w != 0 || a2Field w != 0
  else if opField w = 0x3 then a0Field w != 0 || a1Field w != 0 || a2Field w != 0
  else if opField w = 0x5 then (a0Field w).extractLsb' 1 7 != 0 || a1Field w != 0 || a2Field w != 0
  else if opField w = 0x6 then a0Field w != 0 || a1Field w != 0 || a2Field w != 0
  else false

/-- The illegal words as R75 lists them: `OP` in {0x0, 0x7..0xF}, any nonzero `RSV`, or a nonzero "must be 0" field. -/
def illegalWord (w : Word) : Bool :=
  opField w == 0 || decide (7 ≤ (opField w).toNat) || rsvField w != 0 || argumentsNotZero w

/-- The operands are ones that the instruction's encoding admits. -/
def Instr.wellFormed : Instr → Bool
  | .illegal w => illegalWord w
  | .longPacket _ payload c => decide (payload.length ≤ 255) && (c == 0 || c == Machine.crc16 payload)
  | .rev8 _ => true
  | .ecc6 _ => true
  | .crc16 => true
  | .sendShort _ _ _ => true
  | .sendLong _ => true
  | .bringUp => true
  | .dcsNop => true
  | .dcsSleepOut => true
  | .dcsDisplayOn => true
  | .dcsExitIdle => true
  | .dcsLong => true
  | .genLong => true
  | .lpTxWord _ => true
  | .shortPacket _ _ _ => true
  | .lpPreamble => true
  | .dtDcsShortNoparam => true
  | .dtDcsShortWrite => true
  | .dtDcsLongWrite => true
  | .dtGenericLongWrite => true
  | .dcsCmdNop => true
  | .dcsCmdSleepOut => true
  | .dcsCmdDisplayOn => true
  | .dcsCmdExitIdleMode => true

end Sys2Proof
end

