-- ==== Sys2Proof/Decode.lean ====
section
/-! DEFINITION. The decoder and the encoder. A command word is decoded by the table of spec/30_encoding.md R72 as R74
says; a word of no row is ILLEGAL (R75). The items the CORE emits (R78 to R82) have encodings of their own, which are read
here by the length of the byte list: one byte is a wire byte of R82, four bytes are a command word, five bytes are a short
packet, seven or more are a long packet; anything else is rejected by name (note 9). -/

namespace Sys2Proof

open Machine

/-- A row of the opcode map R72: the word is the row's when its masked bits equal `pat`. -/
structure CommandRow where
  mnemonic : String
  pat : Word
  mask : Word
  build : Word → Instr

/-- The opcode map R72, in its order. -/
def commandRows : List CommandRow := [
  ⟨"REV8", 0x00000001, 0xFFFF00FF, fun w => .rev8 (a0Field w)⟩,
  ⟨"ECC6", 0x00000002, 0x000000FF, fun w => .ecc6 (hField w)⟩,
  ⟨"CRC16", 0x00000003, 0xFFFFFFFF, fun _ => .crc16⟩,
  ⟨"SEND_SHORT", 0x00000004, 0x000000FF, fun w => .sendShort (a0Field w) (a1Field w) (a2Field w)⟩,
  ⟨"SEND_LONG", 0x00000005, 0xFFFFFEFF, fun w => .sendLong ((a0Field w).getLsbD 0)⟩,
  ⟨"BRING_UP", 0x00000006, 0xFFFFFFFF, fun _ => .bringUp⟩]

/-- The test of R74 for one row. -/
def CommandRow.hits (r : CommandRow) (w : Word) : Bool := w &&& r.mask == r.pat

/-- `decode(CMD)` of R74: the first row that matches, else ILLEGAL (R75). Operands as R73 assembles them. -/
def decodeCommand (w : Word) : Instr :=
  match commandRows.find? (fun r => r.hits w) with
  | some r => r.build w
  | none => .illegal w

/-- The reasons a byte list is no instruction's encoding. -/
inductive DecodeError where
  /-- The list is empty or has two, three or six bytes: no item has that length. -/
  | noItemOfThisLength
  /-- One byte that R82 does not list. -/
  | noSuchWireByte (b : Byte)
  /-- A packet's first byte is not the preamble 0xE1 (R126). -/
  | wrongPreamble (b : Byte)
  /-- A packet's ECC byte is not that of its header (R78, R79). -/
  | wrongEcc
  /-- A long packet's type byte is neither 0x39 nor 0x29 (R79). -/
  | wrongLongType (b : Byte)
  /-- A long packet's length bytes do not tell its payload's length (R79). -/
  | wrongLength
  /-- A long packet's checksum is neither its payload's CRC nor zero (R130). -/
  | wrongChecksum
  deriving DecidableEq, Repr

/-- A single wire byte by its value (R82). The byte 0x29 has two roles there (a packet type and a DCS command): alone it
is read as the packet type (note 9). -/
def decodeWireByte (b : Byte) : Except DecodeError Instr :=
  if b = 0xE1 then .ok .lpPreamble
  else if b = 0x05 then .ok .dtDcsShortNoparam
  else if b = 0x15 then .ok .dtDcsShortWrite
  else if b = 0x39 then .ok .dtDcsLongWrite
  else if b = 0x29 then .ok .dtGenericLongWrite
  else if b = 0x00 then .ok .dcsCmdNop
  else if b = 0x11 then .ok .dcsCmdSleepOut
  else if b = 0x38 then .ok .dcsCmdExitIdleMode
  else .error (.noSuchWireByte b)

/-- A short packet (R78). -/
def decodeShortPacket (pre t p q e : Byte) : Except DecodeError Instr :=
  if pre ≠ Config.lpPreamble then .error (.wrongPreamble pre)
  else if headerBytes (rev8 t) (rev8 p) (rev8 q) ≠ [t, p, q, e] then .error .wrongEcc
  else .ok (.shortPacket (rev8 t) (rev8 p) (rev8 q))

/-- The checksum whose two bytes were sent low byte first, each reversed (R54, R79). -/
def checksumOf (lo hi : Byte) : Half := rev8 hi ++ rev8 lo

/-- The last part of a long packet: the payload and the two checksum bytes after it (R79). -/
def decodeLongBody (isDcs : Bool) (n : Nat) (body : List Byte) : Except DecodeError Instr :=
  match body.drop n with
  | [lo, hi] =>
    let payload := (body.take n).map rev8
    let c := checksumOf lo hi
    if c = 0 ∨ c = crc16 payload then .ok (.longPacket isDcs payload c) else .error .wrongChecksum
  | _ => .error .wrongLength

/-- A long packet (R79). -/
def decodeLongPacket (pre t l h e : Byte) (body : List Byte) : Except DecodeError Instr :=
  if pre ≠ Config.lpPreamble then .error (.wrongPreamble pre)
  else if h ≠ 0 then .error .wrongLength
  else if headerBytes (rev8 t) (rev8 l) 0 ≠ [t, l, 0, e] then .error .wrongEcc
  else if rev8 t = 0x39 then decodeLongBody true (rev8 l).toNat body
  else if rev8 t = 0x29 then decodeLongBody false (rev8 l).toNat body
  else .error (.wrongLongType (rev8 t))

/-- The decoder, total on any bytes. -/
def decode : List Byte → Except DecodeError Instr
  | [b] => decodeWireByte b
  | [b0, b1, b2, b3] => .ok (decodeCommand (commandWord b3 b2 b1 b0))
  | [pre, t, p, q, e] => decodeShortPacket pre t p q e
  | pre :: t :: l :: h :: e :: x :: y :: body => decodeLongPacket pre t l h e (x :: y :: body)
  | _ => .error .noItemOfThisLength

/-- The transmit word of R80, which the CORE writes to LP_TX: not a command word, so it has a reader of its own. -/
def decodeTxWord (w : Word) : Option Instr :=
  if w &&& 0xFFFFFF00 = 0x00000100 then some (.lpTxWord (w.extractLsb' 0 8)) else none

/-- The low `nbits / 8` bytes of `w`, least significant first. -/
def tableBytes (nbits w : Nat) : List Byte :=
  (List.range (nbits / 8)).map fun i => BitVec.ofNat 8 (w / 256 ^ i)

/-- The instruction the decoder reads from an item of `nbits` bits `w`, numbered as the opcode table numbers them.
Every command word has 32 bits (R76), so an item of 8 bits is a wire byte. -/
def decodeTableWord (nbits w : Nat) : Option Instr :=
  match decode (tableBytes nbits w) with
  | .ok i => some i
  | .error _ => none

/-! ## The encoder -/

/-- The bytes of an instruction, written from the tables of R72, R77, R78, R79, R80 and R82. -/
def encode : Instr → List Byte
  | .rev8 b => wordBytes (commandWord 0 0 b 0x01)
  | .ecc6 h => wordBytes (commandWord (h.extractLsb' 16 8) (h.extractLsb' 8 8) (h.extractLsb' 0 8) 0x02)
  | .crc16 => wordBytes 0x00000003
  | .sendShort t w0 w1 => wordBytes (commandWord w1 w0 t 0x04)
  | .sendLong isDcs => wordBytes (commandWord 0 0 (if isDcs then 1 else 0) 0x05)
  | .bringUp => wordBytes 0x00000006
  | .dcsNop => wordBytes 0x00000504
  | .dcsSleepOut => wordBytes 0x00111504
  | .dcsDisplayOn => wordBytes 0x00291504
  | .dcsExitIdle => wordBytes 0x00381504
  | .dcsLong => wordBytes 0x00000105
  | .genLong => wordBytes 0x00000005
  | .illegal w => wordBytes w
  | .lpTxWord b => wordBytes (txWord b)
  | .shortPacket t w0 w1 => shortPacketBytes t w0 w1
  | .longPacket isDcs p c => longPacketBytes isDcs p c
  | .lpPreamble => [0xE1]
  | .dtDcsShortNoparam => [0x05]
  | .dtDcsShortWrite => [0x15]
  | .dtDcsLongWrite => [0x39]
  | .dtGenericLongWrite => [0x29]
  | .dcsCmdNop => [0x00]
  | .dcsCmdSleepOut => [0x11]
  | .dcsCmdDisplayOn => [0x29]
  | .dcsCmdExitIdleMode => [0x38]

/-- The instruction that the decoder names for an instruction's encoding. A pseudo-instruction is a second name for the
word of the command it expands to (R77), 0x29 alone is read as the packet type, and a transmit word (R80) that is
presented on the command interface is whatever command word it happens to be; every other instruction is itself. -/
def Instr.canonical : Instr → Instr
  | .dcsNop => .sendShort 0x05 0x00 0x00
  | .dcsSleepOut => .sendShort 0x15 0x11 0x00
  | .dcsDisplayOn => .sendShort 0x15 0x29 0x00
  | .dcsExitIdle => .sendShort 0x15 0x38 0x00
  | .dcsLong => .sendLong true
  | .genLong => .sendLong false
  | .lpTxWord b => decodeCommand (txWord b)
  | .dcsCmdDisplayOn => .dtGenericLongWrite
  | .rev8 b => .rev8 b
  | .ecc6 h => .ecc6 h
  | .crc16 => .crc16
  | .sendShort t w0 w1 => .sendShort t w0 w1
  | .sendLong isDcs => .sendLong isDcs
  | .bringUp => .bringUp
  | .illegal w => .illegal w
  | .shortPacket t w0 w1 => .shortPacket t w0 w1
  | .longPacket isDcs p c => .longPacket isDcs p c
  | .lpPreamble => .lpPreamble
  | .dtDcsShortNoparam => .dtDcsShortNoparam
  | .dtDcsShortWrite => .dtDcsShortWrite
  | .dtDcsLongWrite => .dtDcsLongWrite
  | .dtGenericLongWrite => .dtGenericLongWrite
  | .dcsCmdNop => .dcsCmdNop
  | .dcsCmdSleepOut => .dcsCmdSleepOut
  | .dcsCmdExitIdleMode => .dcsCmdExitIdleMode

end Sys2Proof
end

