-- ==== Sys2Proof/Machine/State.lean ====
section
/-! DEFINITION. The machine's state as plain data: the CORE's registers (spec/10_state.md R20), the HOST's inputs
(spec/30_encoding.md R70, spec/70_reset_and_hazards.md R230), the Register Access Port, the TIMER, the CONTROLLER's
registers (R33), the trace (spec/00_scope.md R13), and the answers the outside world is about to give. -/

namespace Sys2Proof.Machine

/-- The sequencing state `st` (R30). -/
inductive St where
  | idle | exec
  deriving DecidableEq, Repr

/-- The five phases of LP_WRITE_BYTE, `hs_phase` (R30, R121). -/
inductive HsPhase where
  | set | wait1 | write | wait2 | restore
  deriving DecidableEq, Repr

/-- The lines of LP_WRITE_BYTE and of the WAIT_READY loops inside it (R121, R122), one constructor a line. -/
inductive HsLine where
  /-- SET: `hs_saved <- dsi_ctl`. -/
  | setSave
  /-- SET: `dsi_ctl <- dsi_ctl | LP_SEND_MASK`. -/
  | setShadow
  /-- SET: `PortWrite(OFF_DSI_CTL, dsi_ctl)`. -/
  | setWrite
  /-- WAIT1: `poll_n <- 0`. -/
  | wait1Clear
  /-- WAIT1: `v <- PortRead(READY_OFF)`. -/
  | wait1Read
  /-- WAIT1: `if (v & READY_MASK) != 0: return`, else `poll_n <- poll_n + 1`. -/
  | wait1Test
  /-- WAIT1: the bound `HS_TIMEOUT`. -/
  | wait1Bound
  /-- WRITE: `PortWrite(OFF_LP_TX, 0x00000100 | zext_32(b))`. -/
  | txWrite
  /-- WAIT2: `poll_n <- 0`. -/
  | wait2Clear
  /-- WAIT2: `v <- PortRead(READY_OFF)`. -/
  | wait2Read
  /-- WAIT2: `if (v & READY_MASK) != 0: return`, else `poll_n <- poll_n + 1`. -/
  | wait2Test
  /-- WAIT2: the bound `HS_TIMEOUT`. -/
  | wait2Bound
  /-- RESTORE: `dsi_ctl <- hs_saved`. -/
  | restoreShadow
  /-- RESTORE: `PortWrite(OFF_DSI_CTL, dsi_ctl)`. -/
  | restoreWrite
  deriving DecidableEq, Repr

/-- The phase `hs_phase` a line belongs to (R30, R121). -/
def HsLine.phase : HsLine → HsPhase
  | .setSave => .set
  | .setShadow => .set
  | .setWrite => .set
  | .wait1Clear => .wait1
  | .wait1Read => .wait1
  | .wait1Test => .wait1
  | .wait1Bound => .wait1
  | .txWrite => .write
  | .wait2Clear => .wait2
  | .wait2Read => .wait2
  | .wait2Test => .wait2
  | .wait2Bound => .wait2
  | .restoreShadow => .restore
  | .restoreWrite => .restore

/-- `upc`, the position in the current command's program (R20, R30): the line of the program (its micro-step is the
label of that line), and within a line that sends bytes the pair (`tx_idx`, line of the handshake). -/
structure Upc where
  line : Nat
  txIdx : Nat
  hs : HsLine
  deriving DecidableEq, Repr

/-- The first line of a program (R70). -/
def Upc.first : Upc := ⟨0, 0, .setSave⟩

/-- The latched command `cur` (R20, R27, R28): its opcode and arguments as the decoded instruction, `PLEN`, the payload
`pl`, the PanelConfig `cfg`, and `crc_real`. -/
structure Cur where
  instr : Instr
  plen : Half
  pl : List Byte
  cfg : PanelConfig
  crcReal : Bool
  deriving DecidableEq, Repr

/-- What the HOST presents beside `CMD_VALID` (R70). -/
structure HostCmd where
  cmd : Word
  plen : Half
  payload : List Byte
  cfg : PanelConfig
  crcSendReal : Bool
  deriving DecidableEq, Repr

/-- One 32-bit access of the CORE (R11, R50, R58). -/
inductive Access where
  /-- `PortWrite(OFF_r, v)`. -/
  | write (r : Reg) (v : Word)
  /-- `PortRead(READY_OFF)`. -/
  | readReady
  deriving DecidableEq, Repr

/-- The Register Access Port as the CORE and the CONTROLLER see it (R5, R11, R63): one access at a time. -/
inductive PortState where
  /-- No access is outstanding. -/
  | idle
  /-- The CORE has issued an access and the PORT has not answered it. -/
  | req (a : Access)
  /-- The PORT carries the access to the CONTROLLER, which has not yet performed it. -/
  | atCtrl (a : Access)
  /-- The answer `ok(v)` of a read, which the CORE has not yet used. -/
  | got (v : Word)
  /-- The answer `err`, which the CORE has not yet turned into BusError. -/
  | failed (a : Access)
  deriving DecidableEq, Repr

/-- A wait that the TIMER has yet to complete (R11, R239). -/
structure Wait where
  /-- The duration's name. -/
  tag : DelayTag
  /-- How many steps the TIMER lets the wait go on before it completes it; none until the TIMER's first step, which
  chooses the number (R242; note 14). -/
  left : Option Nat
  deriving DecidableEq, Repr

/-- One event of the trace (R13): `W(reg, value)`, `R(READY)` or `D(tag)`, with what the PORT answered. -/
inductive Event where
  /-- A write of `v` to register `r`; `ok` is false when the PORT answered `err`. -/
  | write (r : Reg) (v : Word) (ok : Bool)
  /-- A read at `READY_OFF`; `none` when the PORT answered `err`. -/
  | read (v : Option Word)
  /-- A completed wait. -/
  | delay (t : DelayTag)
  deriving DecidableEq, Repr

/-- The CONTROLLER's registers (R33): what each received last, or a free value where R58 or R232 leaves it unknown. No
read of the CORE returns one of these values: every read is a draw (R33). -/
structure CtrlRegs where
  dsiCtl : Word
  lpTx : Word
  dsiLaneCtl : Word
  dsiTickdiv : Word
  dsiGpio : Word
  hFrontPorch : Word
  hBackPorch : Word
  hActive : Word
  hTotal : Word
  vBackPorch : Word
  vFrontPorch : Word
  vActive : Word
  vTotal : Word
  timingCtl : Word
  deriving DecidableEq, Repr

/-- The error kinds (R200). -/
inductive ErrKind where
  | invalidConfig | handshakeTimeout | busError | illegalCommand | invalidLength
  deriving DecidableEq, Repr

/-- Whose step is next (R5). -/
inductive Turn where
  /-- `RST` is asserted (R230). -/
  | reset
  /-- The PORT answers an issued access. -/
  | port
  /-- The CONTROLLER performs an access. -/
  | controller
  /-- The TIMER completes a wait, or lets it go on for a step. -/
  | timer
  /-- The CORE runs the next line of the current command (R30). -/
  | core
  /-- The CORE accepts the presented command (R70). -/
  | accept
  /-- The HOST presents its next command, if it has one (R70). -/
  | host
  deriving DecidableEq, Repr

/-- The state of the machine. -/
structure State where
  /-- `st` (R30). -/
  st : St
  /-- `dsi_ctl`, the control-word shadow (R22). -/
  dsiCtl : Word
  /-- `hs_saved` (R121, R34). -/
  hsSaved : Word
  /-- `cur`, the latched command (R20). -/
  cur : Cur
  /-- `upc` (R30). -/
  upc : Upc
  /-- `poll_n`, the count of not-ready reads of one wait (R20, R122); held under every `HS_TIMEOUT` (note 22). -/
  pollN : Nat
  /-- `RESULT` (R31, R32). -/
  result : Half
  /-- `ERR` (R31, R200). -/
  err : BitVec 3
  /-- `DONE` (R31). -/
  isDone : Bool
  /-- The input `RST` (R230). -/
  rst : Bool
  /-- The input `CMD_VALID` (R70). -/
  cmdValid : Bool
  /-- The inputs `CMD`, `PLEN`, `PAYLOAD`, `CFG` and `CRC_SEND_REAL` (R70). -/
  hostIn : HostCmd
  /-- The commands the HOST has yet to present, first one first (spec/95_test_vectors.md section 3). -/
  hostQueue : List HostCmd
  /-- The Register Access Port. -/
  port : PortState
  /-- The wait the TIMER has yet to complete. -/
  timer : Option Wait
  /-- The CONTROLLER's registers. -/
  ctrl : CtrlRegs
  /-- The PORT's next answers, `ok` as true; when the list is empty an answer is a draw (R11). -/
  portAnswers : List Bool
  /-- The values of the CONTROLLER's next ready reads; when the list is empty a value is a draw (U2). -/
  readDraws : List Word
  /-- How many steps the TIMER lets each of the next waits go on; when the list is empty the number is a draw (R239). -/
  timerWaits : List Nat
  /-- The draw counter: how many free values have been used. -/
  drawN : Nat
  /-- The trace, first event first (R13). -/
  trace : List Event
  deriving DecidableEq, Repr

/-- Why a step stops. The spec gives the CORE no behaviour that ends a run (every error of R200 is an abort, which is a
next state), so these arise only in states that no run reaches (`Inv` in Safety.lean rules them out). -/
inductive Fault where
  /-- Raised by every meaning when `upc` names no line of the current program, which R30 excludes. Safe. -/
  | upcOutsideProgram
  /-- Raised by the ready test when the PORT holds no answer to a read, which R63 excludes. Safe. -/
  | noPollAnswer
  deriving DecidableEq, Repr

/-- Why a step has no meaning. -/
inductive Refusal where
  /-- Raised by an arm of `exec` whose instruction has no meaning yet. Safe. No arm raises it. -/
  | notModelled (mnemonic : String)
  deriving DecidableEq, Repr

/-- A PanelConfig of zeros: what the `CFG` input and `cur.cfg` hold at reset (note 1). -/
def zeroConfig : PanelConfig := ⟨0, 0, 0, 0, 0, 0, 0, 0, 0, 0, 0⟩

/-- `cur` at reset: R29 leaves it unspecified and no rule reads it before a command writes it (note 1). -/
def Cur.zero : Cur := ⟨.illegal 0, 0, [], zeroConfig, false⟩

/-- The HOST's inputs at reset (note 1). -/
def HostCmd.zero : HostCmd := ⟨0, 0, [], zeroConfig, false⟩

/-- The CONTROLLER's registers in `State.reset`: the spec gives no value (R231, U12; note 2). -/
def CtrlRegs.zero : CtrlRegs := ⟨0, 0, 0, 0, 0, 0, 0, 0, 0, 0, 0, 0, 0, 0⟩

/-- The machine right after reset (R230), with nothing presented, no access outstanding and an empty trace (R231). -/
def State.reset : State where
  st := .idle
  dsiCtl := 0x00000000
  hsSaved := 0
  cur := Cur.zero
  upc := Upc.first
  pollN := 0
  result := 0x0000
  err := 0
  isDone := false
  rst := false
  cmdValid := false
  hostIn := HostCmd.zero
  hostQueue := []
  port := .idle
  timer := none
  ctrl := CtrlRegs.zero
  portAnswers := []
  readDraws := []
  timerWaits := []
  drawN := 0
  trace := []

end Sys2Proof.Machine
end

