-- ==== Sys2Proof/Machine/Flags.lean ====
section
/-! DEFINITION. The status outputs the CORE drives to the HOST (spec/10_state.md R31) and the error codes
(spec/60_exceptions.md R200). -/

namespace Sys2Proof.Machine

/-- The code of an error kind (R200). -/
def errCode : ErrKind → BitVec 3
  | .invalidConfig => 1
  | .handshakeTimeout => 2
  | .busError => 3
  | .illegalCommand => 4
  | .invalidLength => 5

/-- `BUSY`: `st` = EXEC (R31). -/
def busy (s : State) : Bool := s.st == .exec

/-- `CMD_READY`: `st` = IDLE (R31). -/
def cmdReady (s : State) : Bool := s.st == .idle

/-- The test of WAIT_READY: `(v & READY_MASK) != 0` (R122). -/
def isReady (v : Word) : Bool := v &&& Config.readyMask != 0

/-- The bound of WAIT_READY: `HS_TIMEOUT == some N and poll_n >= N` (R122). -/
def pollBoundReached (pollN : Nat) : Bool :=
  match Config.hsTimeout with
  | none => false
  | some n => decide (n ≤ pollN)

/-- `num_lanes` is in 1..4 (R152). -/
def lanesInRange (n : Byte) : Bool := decide (1 ≤ n.toNat) && decide (n.toNat ≤ 4)

/-- `PLEN` is at most `PAYLOAD_MAX` (R201). -/
def lengthInRange (plen : Half) : Bool := decide (plen.toNat ≤ Config.payloadMax)

/-- The CORE waits: the PORT has not answered its access or the TIMER has not completed its wait (R63, R239). -/
def coreWaits (s : State) : Bool :=
  match s.port with
  | .req _ => true
  | .atCtrl _ => true
  | .idle => s.timer.isSome
  | .got _ => s.timer.isSome
  | .failed _ => s.timer.isSome

end Sys2Proof.Machine
end

