-- ==== Sys2Proof/Machine/Ops.lean ====
section
/-! DEFINITION. The named operations on the state: moving `upc`, issuing an access or a wait, ending a command, the abort
that every error takes (spec/60_exceptions.md R203), accepting a command (spec/30_encoding.md R70), reset
(spec/70_reset_and_hazards.md R230 to R232), and the reads and writes of the CONTROLLER's registers. -/

namespace Sys2Proof.Machine

/-! ## The CONTROLLER's registers -/

/-- The value register `r` received last (R33). -/
def CtrlRegs.get (c : CtrlRegs) : Reg → Word
  | .dsiCtl => c.dsiCtl
  | .lpTx => c.lpTx
  | .dsiLaneCtl => c.dsiLaneCtl
  | .dsiTickdiv => c.dsiTickdiv
  | .dsiGpio => c.dsiGpio
  | .hFrontPorch => c.hFrontPorch
  | .hBackPorch => c.hBackPorch
  | .hActive => c.hActive
  | .hTotal => c.hTotal
  | .vBackPorch => c.vBackPorch
  | .vFrontPorch => c.vFrontPorch
  | .vActive => c.vActive
  | .vTotal => c.vTotal
  | .timingCtl => c.timingCtl

/-- The registers given by a function of the register's name. -/
def CtrlRegs.ofFn (f : Reg → Word) : CtrlRegs :=
  ⟨f .dsiCtl, f .lpTx, f .dsiLaneCtl, f .dsiTickdiv, f .dsiGpio, f .hFrontPorch, f .hBackPorch, f .hActive, f .hTotal,
   f .vBackPorch, f .vFrontPorch, f .vActive, f .vTotal, f .timingCtl⟩

/-- Register `r` receives `v`, and no other register changes (R58; the offsets are distinct, R9). -/
def CtrlRegs.set (c : CtrlRegs) (r : Reg) (v : Word) : CtrlRegs :=
  CtrlRegs.ofFn fun q => if q = r then v else c.get q

/-- The byte offset of an access (R50). -/
def Access.offset : Access → Word
  | .write r _ => Config.off r
  | .readReady => Config.readyOff

/-- The target register of a failed or interrupted access takes the unknown value `u` (R58, R232, U8, U13). A read's
target is whichever register, if any, lies at `READY_OFF`. -/
def CtrlRegs.clobber (c : CtrlRegs) (a : Access) (u : Word) : CtrlRegs :=
  match a with
  | .write r _ => c.set r u
  | .readReady => CtrlRegs.ofFn fun q => if Config.off q = Config.readyOff then u else c.get q

/-! ## Draws -/

/-- The PORT's next answer, `ok` as true (R11). -/
def nextPortAnswer (s : State) : Bool × State :=
  match s.portAnswers with
  | [] => (Config.portOk s.drawN, { s with drawN := s.drawN + 1 })
  | b :: rest => (b, { s with portAnswers := rest })

/-- The value of the CONTROLLER's next ready read (R11, U2). -/
def nextReadDraw (s : State) : Word × State :=
  match s.readDraws with
  | [] => (Config.readValue s.drawN, { s with drawN := s.drawN + 1 })
  | v :: rest => (v, { s with readDraws := rest })

/-- How many steps the TIMER lets the next wait go on (R239, R242). -/
def nextTimerWait (s : State) : Nat × State :=
  match s.timerWaits with
  | [] => (Config.timerSteps s.drawN, { s with drawN := s.drawN + 1 })
  | n :: rest => (n, { s with timerWaits := rest })

/-- The target register of access `a` becomes unknown: a fresh draw (R58, R232). -/
def loseTarget (a : Access) (s : State) : State :=
  { s with ctrl := s.ctrl.clobber a (Config.unknownReg s.drawN), drawN := s.drawN + 1 }

/-! ## Moving `upc` -/

/-- Go on with the next line of the program (R30). -/
def nextLine (s : State) : State := { s with upc := ⟨s.upc.line + 1, 0, .setSave⟩ }

/-- Go on with line `p` of the current byte's handshake (R30). -/
def gotoHs (p : HsLine) (s : State) : State := { s with upc := ⟨s.upc.line, s.upc.txIdx, p⟩ }

/-- After a byte's RESTORE: the next byte's SET, or the next line when it was the last of `n` bytes (R126). -/
def nextByte (n : Nat) (s : State) : State :=
  if s.upc.txIdx + 1 < n then { s with upc := ⟨s.upc.line, s.upc.txIdx + 1, .setSave⟩ } else nextLine s

/-! ## Accesses and waits -/

/-- Issue an access on the PORT (R11, R63). -/
def issue (a : Access) (s : State) : State := { s with port := .req a }

/-- Start a wait of the TIMER (R11, R239). -/
def startTimer (t : DelayTag) (s : State) : State := { s with timer := some ⟨t, none⟩ }

/-! ## The end of a command -/

/-- The last line of a program: `RESULT` takes the value the command returns, if it returns one, `DONE` <- 1 and `st` <-
IDLE (R30, R32, R106). -/
def finish (r : Option Half) (s : State) : State :=
  { s with result := r.getD s.result, isDone := true, st := .idle }

/-- The abort, which every error takes: `ERR` <- code, `DONE` <- 1, `st` <- IDLE; nothing is undone (R203). The answer
`err` that caused it, if one did, is used up. -/
def abort (k : ErrKind) (s : State) : State :=
  { s with err := errCode k, isDone := true, st := .idle, port := .idle }

/-! ## The start of a command -/

/-- The effects of acceptance: `cur` <- the command and the inputs beside it, `DONE` <- 0, `ERR` <- 0, `st` <- EXEC and
`upc` <- the first line (R70). There is no return from an error: this clears it (R210). -/
def latch (i : Instr) (s : State) : State :=
  { s with
    cur := ⟨i, s.hostIn.plen, latchedPayload s.hostIn.plen s.hostIn.payload, s.hostIn.cfg, s.hostIn.crcSendReal⟩
    isDone := false
    err := 0
    st := .exec
    upc := Upc.first }

/-- The CORE accepts the presented command: it decodes `CMD` (R74) and latches (R70). The handshake ends the
presentation (note 7). -/
def accept (s : State) : State := { latch (decodeCommand s.hostIn.cmd) s with cmdValid := false }

/-- The HOST presents its next command and holds it until it is accepted (R70); with none left it does nothing. -/
def hostStep (s : State) : State :=
  match s.hostQueue with
  | [] => s
  | c :: rest => { s with cmdValid := true, hostIn := c, hostQueue := rest }

/-! ## Reset -/

/-- An access that `RST` interrupts leaves its target register unknown (R232). -/
def loseInFlight (s : State) : State :=
  match s.port with
  | .req a => loseTarget a s
  | .atCtrl a => loseTarget a s
  | .idle => s
  | .got _ => s
  | .failed _ => s

/-- The effect of `RST`, when it becomes asserted and as long as it is: the CORE's state takes its reset values, the running
command ends, no access is issued, and the CONTROLLER's registers, the HOST's inputs and the trace stay as they are (R230,
R231, R232, R233). -/
def applyReset (s : State) : State :=
  { loseInFlight s with
    st := State.reset.st
    dsiCtl := State.reset.dsiCtl
    hsSaved := State.reset.hsSaved
    cur := State.reset.cur
    upc := State.reset.upc
    pollN := State.reset.pollN
    result := State.reset.result
    err := State.reset.err
    isDone := State.reset.isDone
    port := .idle
    timer := none }

/-- `RST` becomes asserted: the CORE has its reset values from then on (R230). -/
def raiseReset (s : State) : State := { applyReset s with rst := true }

/-- `RST` is released: the first state after it still has the reset values (R230). -/
def releaseReset (s : State) : State := { s with rst := false }

/-! ## Placing a command for the next step -/

/-- The state in which the CORE has just accepted the item of `nbits` bits `w` with the inputs as they stand, so that its
next step runs the item's first line. It stands for the HOST's presenting the word and the step that accepts it (note 6).
An item the decoder rejects changes nothing. -/
def placeItem (nbits w : Nat) (s : State) : State :=
  match decodeTableWord nbits w with
  | none => s
  | some i => { latch i s with rst := false, port := .idle, timer := none }

end Sys2Proof.Machine
end

