-- ==== Sys2Proof/Machine/Agents.lean ====
section
/-! DEFINITION. The agents beside the CORE (spec/00_scope.md R5), one step each, and whose step is next. The CORE issues
one access at a time and goes on only when it is answered (spec/20_memory.md R63), so the order of the agents' steps is
fixed by the state. -/

namespace Sys2Proof.Machine

/-- The PORT answers an issued access: `ok` carries it to the CONTROLLER, `err` leaves the target register unknown and the
CORE to raise BusError (R11, R58, R205). -/
def portStep (s : State) : State :=
  match s.port with
  | .req a =>
    match nextPortAnswer s with
    | (true, s') => { s' with port := .atCtrl a }
    | (false, s') =>
      let s'' := loseTarget a s'
      match a with
      | .write r v => { s'' with port := .failed a, trace := s''.trace ++ [.write r v false] }
      | .readReady => { s'' with port := .failed a, trace := s''.trace ++ [.read none] }
  | .idle => s
  | .atCtrl _ => s
  | .got _ => s
  | .failed _ => s

/-- The CONTROLLER performs the access the PORT carries: a register receives the whole 32-bit value, or a ready read
returns a draw (R11, R58, R59). -/
def controllerStep (s : State) : State :=
  match s.port with
  | .atCtrl (.write r v) =>
    { s with ctrl := s.ctrl.set r v, port := .idle, trace := s.trace ++ [.write r v true] }
  | .atCtrl .readReady =>
    match nextReadDraw s with
    | (v, s') => { s' with port := .got v, trace := s'.trace ++ [.read (some v)] }
  | .idle => s
  | .req _ => s
  | .got _ => s
  | .failed _ => s

/-- The TIMER completes the wait `t` when it has no step left to go on, or lets it go on for one step (R11, R239). -/
def tickTimer (t : DelayTag) (n : Nat) (s : State) : State :=
  match n with
  | 0 => { s with timer := none, trace := s.trace ++ [.delay t] }
  | n + 1 => { s with timer := some ⟨t, some n⟩ }

/-- The TIMER's step: the first one of a wait chooses how long it goes on, which is a number of steps, so that every wait
completes, with no bound on how many it takes (R239, R242). -/
def timerStep (s : State) : State :=
  match s.timer with
  | none => s
  | some ⟨t, some n⟩ => tickTimer t n s
  | some ⟨t, none⟩ =>
    match nextTimerWait s with
    | (n, s') => tickTimer t n s'

/-- Whose step is next: reset first (R230), then an access in progress, then a wait, then the CORE or, in IDLE, the
acceptance of a presented command or the HOST's presenting one. -/
def turn (s : State) : Turn :=
  if s.rst then .reset
  else
    match s.port with
    | .req _ => .port
    | .atCtrl _ => .controller
    | .idle | .got _ | .failed _ =>
      match s.timer with
      | some _ => .timer
      | none =>
        match s.st with
        | .exec => .core
        | .idle => if s.cmdValid then .accept else .host

end Sys2Proof.Machine
end

