-- ==== Sys2Proof/Machine/Program.lean ====
section
/-! DEFINITION. How the CORE runs a command's program one line at a time (spec/00_scope.md R11, R12; spec/10_state.md
R30): the lines of programs, the handshake LP_WRITE_BYTE (spec/41_packet_encoder.md R121, R122), and the step that runs
the line `upc` names. -/

namespace Sys2Proof.Machine

/-- What a meaning answers. -/
abbrev Result := Host.Outcome State Fault Refusal

/-- The micro-steps of BRING_UP (R151); `main` labels the lines of every other program. -/
inductive MicroStep where
  | main | b0 | b1 | b2 | b3 | b4 | b5 | b6 | b7 | b8 | b9 | b10 | b11
  deriving DecidableEq, Repr

/-- A line of a command's program, in the primitives of R11. -/
inductive Line where
  /-- `if num_lanes < 1 or num_lanes > 4: raise InvalidConfig` (R152). -/
  | checkLanes (numLanes : Byte)
  /-- `if len(p) > 255: raise InvalidLength` (R201). -/
  | checkLength (plen : Half)
  /-- `dsi_ctl <- v` (R155, R156). -/
  | setShadow (v : Word)
  /-- `dsi_ctl <- dsi_ctl | m` (R159). -/
  | orShadow (m : Word)
  /-- `PortWrite(OFF_DSI_CTL, dsi_ctl)`. -/
  | writeShadow
  /-- `PortWrite(OFF_r, v)`. -/
  | write (r : Reg) (v : Word)
  /-- `Delay(tag)`. -/
  | delay (t : DelayTag)
  /-- `SEND_BYTES(bytes)` (R126). -/
  | send (bytes : List Byte)
  /-- The end of the command, with the value it returns if it returns one (R30, R32). -/
  | complete (r : Option Half)
  /-- `raise K` (R203). -/
  | raise (k : ErrKind)
  deriving DecidableEq, Repr

/-- A line with the micro-step it stands in. -/
structure ProgLine where
  micro : MicroStep
  op : Line
  deriving DecidableEq, Repr

/-- The test line of WAIT_READY: a ready answer returns to line `ready`, any other counts and goes to line `bound`
(R122). A PORT failure never comes here: it is not a "not ready" answer (R205). The count is kept without a bound too, which is
the model's choice (note 22: R214 against R20 and R122). -/
def pollTest (ready bound : HsLine) (s : State) : Result :=
  match s.port with
  | .got v =>
    if isReady v then .next (gotoHs ready { s with port := .idle })
    else .next (gotoHs bound { s with port := .idle, pollN := s.pollN + 1 })
  | .idle => .fault .noPollAnswer
  | .req _ => .fault .noPollAnswer
  | .atCtrl _ => .fault .noPollAnswer
  | .failed _ => .fault .noPollAnswer

/-- The bound line of WAIT_READY: `raise HandshakeTimeout`, or the next poll (R122, R206). -/
def pollBound (read : HsLine) (s : State) : State :=
  if pollBoundReached s.pollN then abort .handshakeTimeout s else gotoHs read s

/-- One line of LP_WRITE_BYTE(b), for one of the `n` bytes of SEND_BYTES (R121, R122, R126). -/
def hsLine (b : Byte) (n : Nat) (s : State) : Result :=
  match s.upc.hs with
  | .setSave => .next (gotoHs .setShadow { s with hsSaved := s.dsiCtl })
  | .setShadow => .next (gotoHs .setWrite { s with dsiCtl := s.dsiCtl ||| Config.lpSendMask })
  | .setWrite => .next (gotoHs .wait1Clear (issue (.write .dsiCtl s.dsiCtl) s))
  | .wait1Clear => .next (gotoHs .wait1Read { s with pollN := 0 })
  | .wait1Read => .next (gotoHs .wait1Test (issue .readReady s))
  | .wait1Test => pollTest .txWrite .wait1Bound s
  | .wait1Bound => .next (pollBound .wait1Read s)
  | .txWrite => .next (gotoHs .wait2Clear (issue (.write .lpTx (txWord b)) s))
  | .wait2Clear => .next (gotoHs .wait2Read { s with pollN := 0 })
  | .wait2Read => .next (gotoHs .wait2Test (issue .readReady s))
  | .wait2Test => pollTest .restoreShadow .wait2Bound s
  | .wait2Bound => .next (pollBound .wait2Read s)
  | .restoreShadow => .next (gotoHs .restoreWrite { s with dsiCtl := s.hsSaved })
  | .restoreWrite => .next (nextByte n (issue (.write .dsiCtl s.dsiCtl) s))

/-- The current line of SEND_BYTES(bytes): the handshake of byte `tx_idx` (R126). -/
def sendLine (bytes : List Byte) (s : State) : Result :=
  match bytes[s.upc.txIdx]? with
  | some b => hsLine b bytes.length s
  | none => .fault .upcOutsideProgram

/-- One line of a program. -/
def runLine (l : Line) (s : State) : Result :=
  match l with
  | .checkLanes n => .next (if lanesInRange n then nextLine s else abort .invalidConfig s)
  | .checkLength n => .next (if lengthInRange n then nextLine s else abort .invalidLength s)
  | .setShadow v => .next (nextLine { s with dsiCtl := v })
  | .orShadow m => .next (nextLine { s with dsiCtl := s.dsiCtl ||| m })
  | .writeShadow => .next (nextLine (issue (.write .dsiCtl s.dsiCtl) s))
  | .write r v => .next (nextLine (issue (.write r v) s))
  | .delay t => .next (nextLine (startTimer t s))
  | .send bytes => sendLine bytes s
  | .complete r => .next (finish r s)
  | .raise k => .next (abort k s)

/-- The CORE's step of the program `prog`: it waits while its access or its wait is not answered (R63), raises BusError
when the PORT has answered `err` (R205), and otherwise runs the line `upc` names (R30). -/
def runProgram (prog : List ProgLine) (s : State) : Result :=
  if coreWaits s then .next s
  else
    match s.port with
    | .failed _ => .next (abort .busError s)
    | .idle | .req _ | .atCtrl _ | .got _ =>
      match prog[s.upc.line]? with
      | some l => runLine l.op s
      | none => .fault .upcOutsideProgram

end Sys2Proof.Machine
end

