-- ==== Sys2Proof/Machine/BringUp.lean ====
section
/-! DEFINITION. The meaning of BRING_UP: the fixed linear program of spec/42_sequencer.md R151. -/

namespace Sys2Proof.Machine

/-- B0 to B4: the configuration check, the timing generator off, the lane configuration, and the control word (R152 to
R156). -/
def bringUpSetup (cfg : PanelConfig) : List ProgLine := [
  ⟨.b0, .checkLanes cfg.numLanes⟩,
  ⟨.b1, .write .timingCtl 0x00000000⟩,
  ⟨.b2, .write .dsiLaneCtl cfg.laneConfig⟩,
  ⟨.b3, .setShadow 0x00000000⟩,
  ⟨.b3, .writeShadow⟩,
  ⟨.b3, .write .dsiTickdiv cfg.lpDivider⟩,
  ⟨.b4, .setShadow (Config.laneEnc cfg.numLanes)⟩,
  ⟨.b4, .writeShadow⟩]

/-- B5 to B7: panel power, panel reset, and the controller clock (R157 to R159). -/
def bringUpPower : List ProgLine := [
  ⟨.b5, .write .dsiGpio Config.gpioAvddOn⟩,
  ⟨.b5, .delay .avdd⟩,
  ⟨.b6, .write .dsiGpio Config.gpioResetAssert⟩,
  ⟨.b6, .delay .rstAssert⟩,
  ⟨.b6, .write .dsiGpio Config.gpioResetRelease⟩,
  ⟨.b6, .delay .rstRelease⟩,
  ⟨.b7, .orShadow Config.clkEn⟩,
  ⟨.b7, .delay .clk⟩,
  ⟨.b7, .writeShadow⟩]

/-- B8 and B9: the cold-boot DCS packets (R160, R161). -/
def bringUpPackets : List ProgLine := [
  ⟨.b8, .send (shortPacketBytes 0x05 0x00 0x00)⟩,
  ⟨.b9, .send (shortPacketBytes 0x15 0x11 0x00)⟩,
  ⟨.b9, .delay .cmdDelay⟩,
  ⟨.b9, .send (shortPacketBytes 0x15 0x29 0x00)⟩,
  ⟨.b9, .delay .cmdDelay⟩,
  ⟨.b9, .send (shortPacketBytes 0x15 0x38 0x00)⟩,
  ⟨.b9, .delay .cmdDelay⟩]

/-- B10 and B11: the timing registers, the timing generator on, and the end (R162, R165). -/
def bringUpTiming (cfg : PanelConfig) : List ProgLine := [
  ⟨.b10, .write .hFrontPorch (Config.hFpFn cfg)⟩,
  ⟨.b10, .write .hBackPorch (Config.hBpFn cfg)⟩,
  ⟨.b10, .write .hActive (hActiveValue cfg)⟩,
  ⟨.b10, .write .hTotal (Config.hTotalFn cfg)⟩,
  ⟨.b10, .write .vBackPorch (vBackPorchValue cfg)⟩,
  ⟨.b10, .write .vFrontPorch (vFrontPorchValue cfg)⟩,
  ⟨.b10, .write .vActive (vActiveValue cfg)⟩,
  ⟨.b10, .write .vTotal (vActiveValue cfg)⟩,
  ⟨.b11, .write .timingCtl 0x00000001⟩,
  ⟨.b11, .complete (some 0x0000)⟩]

/-- The BRING_UP program (R151). -/
def bringUpProgram (cfg : PanelConfig) : List ProgLine :=
  bringUpSetup cfg ++ bringUpPower ++ bringUpPackets ++ bringUpTiming cfg

/-- BRING_UP (R150, R151). -/
def execBringUp (s : State) : Result := runProgram (bringUpProgram s.cur.cfg) s

end Sys2Proof.Machine
end

