-- ==== Sys2Proof/Machine/Emitted.lean ====
section
/-! DEFINITION. The meanings of the items the CORE emits (spec/30_encoding.md R78 to R82). No command word selects one; each
is the sub-program that puts the item on the wire through LP_WRITE_BYTE (spec/41_packet_encoder.md R120, R121, R126), as
SEND_SHORT and SEND_LONG run it. Run alone it ends as a command ends, and returns no value (note 8). -/

namespace Sys2Proof.Machine

/-- `SEND_BYTES(bytes)` (R126) as a program of its own. -/
def emitProgram (bytes : List Byte) : List ProgLine := [⟨.main, .send bytes⟩, ⟨.main, .complete none⟩]

/-- LP_TX_WORD: LP_WRITE_BYTE(b), which writes the word of R80 to LP_TX (R121). -/
def execLpTxWord (b : Byte) (s : State) : Result := runProgram (emitProgram [b]) s

/-- SHORT_PACKET (R78). -/
def execShortPacket (t w0 w1 : Byte) (s : State) : Result := runProgram (emitProgram (shortPacketBytes t w0 w1)) s

/-- LONG_PACKET (R79). -/
def execLongPacket (isDcs : Bool) (p : List Byte) (c : Half) (s : State) : Result :=
  runProgram (emitProgram (longPacketBytes isDcs p c)) s

/-- LP_PREAMBLE: 0xE1, not reversed (R55, R126). -/
def execLpPreamble (s : State) : Result := runProgram (emitProgram [0xE1]) s

/-- DT_DCS_SHORT_NOPARAM: 0x05, sent reversed (R55, R82). -/
def execDtDcsShortNoparam (s : State) : Result := runProgram (emitProgram [rev8 0x05]) s

/-- DT_DCS_SHORT_WRITE: 0x15, sent reversed (R55, R82). -/
def execDtDcsShortWrite (s : State) : Result := runProgram (emitProgram [rev8 0x15]) s

/-- DT_DCS_LONG_WRITE: 0x39, sent reversed (R55, R82). -/
def execDtDcsLongWrite (s : State) : Result := runProgram (emitProgram [rev8 0x39]) s

/-- DT_GENERIC_LONG_WRITE: 0x29, sent reversed (R55, R82). -/
def execDtGenericLongWrite (s : State) : Result := runProgram (emitProgram [rev8 0x29]) s

/-- DCS_CMD_NOP: 0x00, sent reversed (R55, R82). -/
def execDcsCmdNop (s : State) : Result := runProgram (emitProgram [rev8 0x00]) s

/-- DCS_CMD_SLEEP_OUT: 0x11, sent reversed (R55, R82). -/
def execDcsCmdSleepOut (s : State) : Result := runProgram (emitProgram [rev8 0x11]) s

/-- DCS_CMD_DISPLAY_ON: 0x29, sent reversed (R55, R82). -/
def execDcsCmdDisplayOn (s : State) : Result := runProgram (emitProgram [rev8 0x29]) s

/-- DCS_CMD_EXIT_IDLE_MODE: 0x38, sent reversed (R55, R82). -/
def execDcsCmdExitIdleMode (s : State) : Result := runProgram (emitProgram [rev8 0x38]) s

end Sys2Proof.Machine
end

