-- ==== Sys2Proof/Machine/Packet.lean ====
section
/-! DEFINITION. The meanings of the packet commands SEND_SHORT and SEND_LONG (spec/41_packet_encoder.md R128, R129) and of
their pseudo-instructions (spec/30_encoding.md R77). -/

namespace Sys2Proof.Machine

/-- The program of SEND_SHORT (R128): send the packet, then `RESULT` <- `zext_16(e)`. -/
def sendShortProgram (t w0 w1 : Byte) : List ProgLine := [
  ⟨.main, .send (shortPacketBytes t w0 w1)⟩,
  ⟨.main, .complete (some ((ecc6 (header t w0 w1)).setWidth 16))⟩]

/-- The program of SEND_LONG (R129): the length check before any access, the packet with the checksum of R130, then
`RESULT` <- the real CRC. -/
def sendLongProgram (isDcs : Bool) (c : Cur) : List ProgLine := [
  ⟨.main, .checkLength c.plen⟩,
  ⟨.main, .send (longPacketBytes isDcs c.pl (transmittedChecksum c.crcReal c.pl))⟩,
  ⟨.main, .complete (some (crc16 c.pl))⟩]

/-- SEND_SHORT (R128). -/
def execSendShort (t w0 w1 : Byte) (s : State) : Result := runProgram (sendShortProgram t w0 w1) s

/-- SEND_LONG (R129). -/
def execSendLong (isDcs : Bool) (s : State) : Result := runProgram (sendLongProgram isDcs s.cur) s

/-- DCS_NOP = SEND_SHORT 0x05, 0x00, 0x00 (R77). -/
def execDcsNop (s : State) : Result := runProgram (sendShortProgram 0x05 0x00 0x00) s

/-- DCS_SLEEP_OUT = SEND_SHORT 0x15, 0x11, 0x00 (R77). -/
def execDcsSleepOut (s : State) : Result := runProgram (sendShortProgram 0x15 0x11 0x00) s

/-- DCS_DISPLAY_ON = SEND_SHORT 0x15, 0x29, 0x00 (R77). -/
def execDcsDisplayOn (s : State) : Result := runProgram (sendShortProgram 0x15 0x29 0x00) s

/-- DCS_EXIT_IDLE = SEND_SHORT 0x15, 0x38, 0x00 (R77). -/
def execDcsExitIdle (s : State) : Result := runProgram (sendShortProgram 0x15 0x38 0x00) s

/-- DCS_LONG [..] = SEND_LONG dcs, [..] (R77). -/
def execDcsLong (s : State) : Result := runProgram (sendLongProgram true s.cur) s

/-- GEN_LONG [..] = SEND_LONG gen, [..] (R77). -/
def execGenLong (s : State) : Result := runProgram (sendLongProgram false s.cur) s

end Sys2Proof.Machine
end

