-- ==== Sys2Proof/Machine/Primitive.lean ====
section
/-! DEFINITION. The meanings of REV8, ECC6 and CRC16 as commands (spec/40_primitives.md R100, R101, R103, R106) and of the
illegal words (spec/60_exceptions.md R207). Each takes one CORE step after acceptance. -/

namespace Sys2Proof.Machine

/-- The program of REV8 (R100): `RESULT` <- `zext_16(REV8(b))`. -/
def rev8Program (b : Byte) : List ProgLine := [⟨.main, .complete (some ((rev8 b).setWidth 16))⟩]

/-- The program of ECC6 (R101): `RESULT` <- `zext_16(ECC6(h))`. -/
def ecc6Program (h : Header) : List ProgLine := [⟨.main, .complete (some ((ecc6 h).setWidth 16))⟩]

/-- The program of CRC16 (R103, R106, R201): one step that returns the CRC of the latched payload or raises
InvalidLength. -/
def crc16Program (c : Cur) : List ProgLine :=
  [⟨.main, if lengthInRange c.plen then .complete (some (crc16 c.pl)) else .raise .invalidLength⟩]

/-- The program of a word that decodes to ILLEGAL: its first step raises IllegalCommand (R75, R207). -/
def illegalProgram : List ProgLine := [⟨.main, .raise .illegalCommand⟩]

/-- REV8 (R100). -/
def execRev8 (b : Byte) (s : State) : Result := runProgram (rev8Program b) s

/-- ECC6 (R101). -/
def execEcc6 (h : Header) (s : State) : Result := runProgram (ecc6Program h) s

/-- CRC16 (R103). -/
def execCrc16 (s : State) : Result := runProgram (crc16Program s.cur) s

/-- ILLEGAL (R207). The word itself plays no part. -/
def execIllegal (_w : Word) (s : State) : Result := runProgram illegalProgram s

end Sys2Proof.Machine
end

