-- ==== Sys2Proof/Machine/Dispatch.lean ====
section
/-! DEFINITION. The dispatch: one arm for each constructor of Instr, each one direct call of the instruction's meaning. -/

namespace Sys2Proof.Machine

def exec (i : Instr) (s : State) : Host.Outcome State Fault Refusal :=
  match i with
  | .rev8 b => Sys2Proof.Machine.execRev8 b s
  | .ecc6 h => Sys2Proof.Machine.execEcc6 h s
  | .crc16 => Sys2Proof.Machine.execCrc16 s
  | .sendShort t w0 w1 => Sys2Proof.Machine.execSendShort t w0 w1 s
  | .sendLong isDcs => Sys2Proof.Machine.execSendLong isDcs s
  | .bringUp => Sys2Proof.Machine.execBringUp s
  | .dcsNop => Sys2Proof.Machine.execDcsNop s
  | .dcsSleepOut => Sys2Proof.Machine.execDcsSleepOut s
  | .dcsDisplayOn => Sys2Proof.Machine.execDcsDisplayOn s
  | .dcsExitIdle => Sys2Proof.Machine.execDcsExitIdle s
  | .dcsLong => Sys2Proof.Machine.execDcsLong s
  | .genLong => Sys2Proof.Machine.execGenLong s
  | .illegal w => Sys2Proof.Machine.execIllegal w s
  | .lpTxWord b => Sys2Proof.Machine.execLpTxWord b s
  | .shortPacket t w0 w1 => Sys2Proof.Machine.execShortPacket t w0 w1 s
  | .longPacket isDcs p c => Sys2Proof.Machine.execLongPacket isDcs p c s
  | .lpPreamble => Sys2Proof.Machine.execLpPreamble s
  | .dtDcsShortNoparam => Sys2Proof.Machine.execDtDcsShortNoparam s
  | .dtDcsShortWrite => Sys2Proof.Machine.execDtDcsShortWrite s
  | .dtDcsLongWrite => Sys2Proof.Machine.execDtDcsLongWrite s
  | .dtGenericLongWrite => Sys2Proof.Machine.execDtGenericLongWrite s
  | .dcsCmdNop => Sys2Proof.Machine.execDcsCmdNop s
  | .dcsCmdSleepOut => Sys2Proof.Machine.execDcsCmdSleepOut s
  | .dcsCmdDisplayOn => Sys2Proof.Machine.execDcsCmdDisplayOn s
  | .dcsCmdExitIdleMode => Sys2Proof.Machine.execDcsCmdExitIdleMode s

end Sys2Proof.Machine
end

