-- ==== Sys2Proof/Machine/Step.lean ====
section
/-! DEFINITION. One step of the machine: the step of the agent whose turn it is (spec/00_scope.md R5, R8). -/

namespace Sys2Proof.Machine

/-- One step. -/
def step (s : State) : Host.Outcome State Fault Refusal :=
  match turn s with
  | .reset => .next (applyReset s)
  | .port => .next (portStep s)
  | .controller => .next (controllerStep s)
  | .timer => .next (timerStep s)
  | .core => exec s.cur.instr s
  | .accept => .next (accept s)
  | .host => .next (hostStep s)

/-- `s` with the item of `nbits` bits `w` placed so that the very next step runs it (note 6). -/
def State.withFetchWord (s : State) (nbits w : Nat) : State := placeItem nbits w s

end Sys2Proof.Machine
end

