-- ==== Sys2Proof/Safety.lean ====
section
/-! DEFINITION. The terms the claims use: the program each meaning runs, the conditions under which the CORE may run a
line, the invariants of the machine, the moves the outside world may make beside `step`, and the traces of
spec/41_packet_encoder.md R121 and spec/42_sequencer.md R166 written from the spec's own lists. -/

namespace Sys2Proof.Machine

/-! ## Programs and runs -/

/-- The program that the meaning of an instruction runs, given the latched command. -/
def programOf (i : Instr) (c : Cur) : List ProgLine :=
  match i with
  | .rev8 b => rev8Program b
  | .ecc6 h => ecc6Program h
  | .crc16 => crc16Program c
  | .sendShort t w0 w1 => sendShortProgram t w0 w1
  | .sendLong isDcs => sendLongProgram isDcs c
  | .bringUp => bringUpProgram c.cfg
  | .dcsNop => sendShortProgram 0x05 0x00 0x00
  | .dcsSleepOut => sendShortProgram 0x15 0x11 0x00
  | .dcsDisplayOn => sendShortProgram 0x15 0x29 0x00
  | .dcsExitIdle => sendShortProgram 0x15 0x38 0x00
  | .dcsLong => sendLongProgram true c
  | .genLong => sendLongProgram false c
  | .illegal _ => illegalProgram
  | .lpTxWord b => emitProgram [b]
  | .shortPacket t w0 w1 => emitProgram (shortPacketBytes t w0 w1)
  | .longPacket isDcs p k => emitProgram (longPacketBytes isDcs p k)
  | .lpPreamble => emitProgram [0xE1]
  | .dtDcsShortNoparam => emitProgram [rev8 0x05]
  | .dtDcsShortWrite => emitProgram [rev8 0x15]
  | .dtDcsLongWrite => emitProgram [rev8 0x39]
  | .dtGenericLongWrite => emitProgram [rev8 0x29]
  | .dcsCmdNop => emitProgram [rev8 0x00]
  | .dcsCmdSleepOut => emitProgram [rev8 0x11]
  | .dcsCmdDisplayOn => emitProgram [rev8 0x29]
  | .dcsCmdExitIdleMode => emitProgram [rev8 0x38]

/-- `k` steps of the machine lead from `s` to `t`, with no fault and no refusal on the way. -/
def Runs (k : Nat) (s t : State) : Prop := Host.Core.run Sys2Proof.core k s = .next t

/-- The machine steps from `s` to `t`, and a command runs in every state before `t` (R30): when `t` is in IDLE, it is the state
in which that command has ended. -/
inductive CommandRun : State → State → Prop where
  | last {s t : State} : s.st = .exec → step s = .next t → CommandRun s t
  | more {s t u : State} : s.st = .exec → step s = .next t → CommandRun t u → CommandRun s u

/-- The CORE may run a line: no access is outstanding or unanswered and no wait is running (R63, R239). -/
def CoreFree (s : State) : Prop := s.port = .idle ∧ s.timer = none

/-- The CORE has just accepted instruction `i` and `RST` is not asserted: the state after R70's acceptance, which clears
`DONE` and `ERR`. -/
structure Started (i : Instr) (s : State) : Prop where
  rst : s.rst = false
  st : s.st = .exec
  instr : s.cur.instr = i
  first : s.upc = Upc.first
  free : CoreFree s
  isDone : s.isDone = false
  err : s.err = 0

/-! ## The moves of the outside world -/

/-- What may change between two steps: the HOST's inputs (R70, R241: a presented word is held until it is accepted), the
HOST's further commands, and the answers the PORT, the CONTROLLER and the TIMER are about to give (R11). `RST` may become
asserted in any state, and the CORE then has its reset values at once; it may be released again (R230; note 19). The HOST
has no move that accesses the PORT (R60). -/
inductive OutsideMove : State → State → Prop where
  | drive (s : State) (c : HostCmd) (held : s.cmdValid = true → c.cmd = s.hostIn.cmd) :
      OutsideMove s { s with hostIn := c }
  | present (s : State) (c : HostCmd) (free : s.cmdValid = false) :
      OutsideMove s { s with cmdValid := true, hostIn := c }
  | raiseReset (s : State) : OutsideMove s (raiseReset s)
  | releaseReset (s : State) : OutsideMove s (releaseReset s)
  | queue (s : State) (q : List HostCmd) : OutsideMove s { s with hostQueue := q }
  | answers (s : State) (p : List Bool) (v : List Word) (d : List Nat) :
      OutsideMove s { s with portAnswers := p, readDraws := v, timerWaits := d }

/-- The states reached from `s` by steps of the machine and moves of the outside world, in any order. -/
inductive Reach (s : State) : State → Prop where
  | start : Reach s s
  | step {t u : State} : Reach s t → step t = .next u → Reach s u
  | outside {t u : State} : Reach s t → OutsideMove t u → Reach s u

/-- An endless history of the machine: each state comes from the one before by a step or by a move of the outside world, and
the machine steps again and again. Nothing else is assumed of it: that each wait completes is a property of the TIMER
(R242), and that the CONTROLLER ever answers ready is none. -/
structure History (f : Nat → State) : Prop where
  moves : ∀ n, step (f n) = .next (f (n + 1)) ∨ OutsideMove (f n) (f (n + 1))
  steps : ∀ n, ∃ m, n ≤ m ∧ step (f m) = .next (f (m + 1))

/-! ## Invariants -/

/-- The line tests the answer of a ready read. -/
def HsLine.isTest : HsLine → Bool
  | .wait1Test => true
  | .wait2Test => true
  | .setSave => false
  | .setShadow => false
  | .setWrite => false
  | .wait1Clear => false
  | .wait1Read => false
  | .wait1Bound => false
  | .txWrite => false
  | .wait2Clear => false
  | .wait2Read => false
  | .wait2Bound => false
  | .restoreShadow => false
  | .restoreWrite => false

/-- The PORT carries a ready read or holds its value. -/
def PortState.isPoll : PortState → Bool
  | .req .readReady => true
  | .atCtrl .readReady => true
  | .got _ => true
  | .idle => false
  | .req (.write _ _) => false
  | .atCtrl (.write _ _) => false
  | .failed _ => false

/-- The PORT holds an `err` answer. -/
def PortState.isFailed : PortState → Bool
  | .failed _ => true
  | .idle => false
  | .req _ => false
  | .atCtrl _ => false
  | .got _ => false

/-- The position `u` names a line of the program, and a byte of that line's list when the line sends bytes (R30). -/
def UpcIn (prog : List ProgLine) (u : Upc) : Prop :=
  match prog[u.line]? with
  | none => False
  | some l =>
    match l.op with
    | .send bytes => u.txIdx < bytes.length
    | .checkLanes _ => u.txIdx = 0 ∧ u.hs = .setSave
    | .checkLength _ => u.txIdx = 0 ∧ u.hs = .setSave
    | .setShadow _ => u.txIdx = 0 ∧ u.hs = .setSave
    | .orShadow _ => u.txIdx = 0 ∧ u.hs = .setSave
    | .writeShadow => u.txIdx = 0 ∧ u.hs = .setSave
    | .write _ _ => u.txIdx = 0 ∧ u.hs = .setSave
    | .delay _ => u.txIdx = 0 ∧ u.hs = .setSave
    | .complete _ => u.txIdx = 0 ∧ u.hs = .setSave
    | .raise _ => u.txIdx = 0 ∧ u.hs = .setSave

/-- The values that R230 gives the CORE's state while `RST` is asserted. -/
structure AtReset (s : State) : Prop where
  st : s.st = .idle
  cmdReady : cmdReady s = true
  busy : busy s = false
  isDone : s.isDone = false
  err : s.err = 0
  result : s.result = 0x0000
  dsiCtl : s.dsiCtl = 0x00000000

/-- The machine's invariant. It rules out the states in which a step would stop. -/
structure Inv (s : State) : Prop where
  /-- While `RST` is asserted the CORE has its reset values (R230). -/
  atReset : s.rst = true → AtReset s
  /-- `ERR` holds a code of R200: 6 and 7 are never raised. -/
  errCode : s.err.toNat ≤ 5
  /-- In IDLE no access is outstanding and no wait is running (R218). -/
  idleQuiet : s.st = .idle → CoreFree s
  /-- While a command runs, `DONE` and `ERR` are as its acceptance left them (R31, R70). -/
  execClear : s.st = .exec → s.isDone = false ∧ s.err = 0
  /-- While a command runs, `upc` names a line of its program (R30). -/
  upcIn : s.st = .exec → UpcIn (programOf s.cur.instr s.cur) s.upc
  /-- The CORE has at most one access or wait outstanding (R63). -/
  oneOutstanding : s.timer ≠ none → s.port = .idle
  /-- A ready read is outstanding exactly when the CORE is about to test its answer. -/
  pollInPlace : s.st = .exec → s.port.isPoll = true → s.upc.hs.isTest = true
  /-- At a ready test the read has been issued. -/
  pollIssued : s.st = .exec → s.upc.hs.isTest = true → s.port.isPoll = true ∨ s.port.isFailed = true
  /-- While a command runs, its latched payload has `PLEN` bytes when `PLEN` is at most 255 (R28, R70). -/
  payload : s.st = .exec → s.cur.plen.toNat ≤ 255 → s.cur.pl.length = s.cur.plen.toNat

/-- Every bit that `LANE_ENC` may set for a legal lane count (R23). -/
def laneBits : Word := Config.laneEnc 1 ||| Config.laneEnc 2 ||| Config.laneEnc 3 ||| Config.laneEnc 4

/-- `v` sets no bit but CLK_EN, the lane bits and LP_SEND (R23). -/
def OnlyShadowFields (v : Word) : Prop :=
  v &&& ~~~ (Config.clkEn ||| laneBits ||| Config.lpSendMask) = 0

/-- The other bits of the shadow are never set by the CORE (R23). -/
structure ShadowInv (s : State) : Prop where
  shadow : OnlyShadowFields s.dsiCtl
  /-- Once SET's first line has saved the shadow, what it saved sets no other bit either. -/
  saved : s.st = .exec → s.upc.hs ≠ .setSave → OnlyShadowFields s.hsSaved
  /-- Past B0 the lane count is legal (R152). -/
  lanes : s.st = .exec → s.cur.instr = .bringUp → 0 < s.upc.line → lanesInRange s.cur.cfg.numLanes = true

/-- The lines of a handshake during which LP_SEND is set in the shadow, from SET to RESTORE (R121). -/
def HsLine.lpOpen : HsLine → Bool
  | .setWrite => true
  | .wait1Clear => true
  | .wait1Read => true
  | .wait1Test => true
  | .wait1Bound => true
  | .txWrite => true
  | .wait2Clear => true
  | .wait2Read => true
  | .wait2Test => true
  | .wait2Bound => true
  | .restoreShadow => true
  | .setSave => false
  | .setShadow => false
  | .restoreWrite => false

/-- What `hs_saved` holds during a handshake (R34, R121). -/
structure HandshakeInv (s : State) : Prop where
  saved : s.st = .exec → s.upc.hs = .setShadow → s.hsSaved = s.dsiCtl
  opened : s.st = .exec → s.upc.hs.lpOpen = true → s.dsiCtl = s.hsSaved ||| Config.lpSendMask
  restored : s.st = .exec → s.upc.hs = .restoreWrite → s.dsiCtl = s.hsSaved

/-- An outstanding write of DSI_CTL carries the shadow (R34). -/
def ShadowWriteInv (s : State) : Prop :=
  ∀ v, s.port = .req (.write .dsiCtl v) ∨ s.port = .atCtrl (.write .dsiCtl v) → v = s.dsiCtl

/-- `W(r, v)`, answered `ok` (R13). -/
def wEvent (r : Reg) (v : Word) : Event := .write r v true

/-- `R(READY)`, answered `ok(v)` (R13). -/
def rEvent (v : Word) : Event := .read (some v)

/-- The event of an access that the PORT answers `err` (R13). -/
def failedEvent : Access → Event
  | .write r v => .write r v false
  | .readReady => .read none

/-- `D(t)` (R13). -/
def dEvent (t : DelayTag) : Event := .delay t

/-- The event is a ready read. -/
def Event.isReadyRead : Event → Bool
  | .read (some v) => isReady v
  | .read none => false
  | .write _ _ _ => false
  | .delay _ => false

/-- The event is a write of LP_TX. -/
def Event.isTx : Event → Bool
  | .write .lpTx _ _ => true
  | .write _ _ _ => false
  | .read _ => false
  | .delay _ => false

/-- The event is a read at READY_OFF. -/
def Event.isRead : Event → Bool
  | .read _ => true
  | .write _ _ _ => false
  | .delay _ => false

/-- The value of a write of DSI_CTL. -/
def Event.shadowValue : Event → Option Word
  | .write .dsiCtl v _ => some v
  | .write _ _ _ => none
  | .read _ => none
  | .delay _ => none

/-- Every write of LP_TX in the trace comes directly after a ready read (R238). -/
def TxAfterReady (tr : List Event) : Prop :=
  ∀ pre e suf, tr = pre ++ e :: suf → e.isTx = true →
    ∃ pre' r, pre = pre' ++ [r] ∧ r.isReadyRead = true

/-- The trace ends with a write of register `r` and then only not-ready reads: the wait after that write goes on. -/
def Polled (r : Reg) (tr : List Event) : Prop :=
  ∃ (pre : List Event) (v : Word) (nots : List Word), tr = pre ++ [wEvent r v] ++ nots.map rEvent ∧ ∀ x ∈ nots, isReady x = false

/-- The trace ends with a write of register `r`, not-ready reads, and a ready read: the wait after that write has ended. -/
def ReadySince (r : Reg) (tr : List Event) : Prop :=
  ∃ tr' x, tr = tr' ++ [rEvent x] ∧ Polled r tr' ∧ isReady x = true

/-- The register whose write the line's wait follows, on the lines of WAIT1 and WAIT2 (R121, R122). -/
def HsLine.waitsAfter : HsLine → Option Reg
  | .wait1Clear => some .dsiCtl
  | .wait1Read => some .dsiCtl
  | .wait1Test => some .dsiCtl
  | .wait1Bound => some .dsiCtl
  | .wait2Clear => some .lpTx
  | .wait2Read => some .lpTx
  | .wait2Test => some .lpTx
  | .wait2Bound => some .lpTx
  | .setSave => none
  | .setShadow => none
  | .setWrite => none
  | .txWrite => none
  | .restoreShadow => none
  | .restoreWrite => none

/-- The register whose write the wait before the line followed, on the lines WRITE and RESTORE (R121, R238). -/
def HsLine.hasWaitedAfter : HsLine → Option Reg
  | .txWrite => some .dsiCtl
  | .restoreShadow => some .lpTx
  | .restoreWrite => some .lpTx
  | .setSave => none
  | .setShadow => none
  | .setWrite => none
  | .wait1Clear => none
  | .wait1Read => none
  | .wait1Test => none
  | .wait1Bound => none
  | .wait2Clear => none
  | .wait2Read => none
  | .wait2Test => none
  | .wait2Bound => none

/-- The line is one of SET (R121). -/
def HsLine.inSet (p : HsLine) : Bool := p.phase == .set

/-- The line may be next while the access of the line before is outstanding. -/
def HsLine.followsAccess : HsLine → Bool
  | .setSave => true
  | .wait1Clear => true
  | .wait1Test => true
  | .wait2Clear => true
  | .wait2Test => true
  | .setShadow => false
  | .setWrite => false
  | .wait1Read => false
  | .wait1Bound => false
  | .txWrite => false
  | .wait2Read => false
  | .wait2Bound => false
  | .restoreShadow => false
  | .restoreWrite => false

/-- The order of the handshake's accesses, as the trace shows it while a command runs (R121, R238). -/
structure HandshakeOrder (s : State) : Prop where
  /-- No access is outstanding at a line that does not follow one. -/
  quiet : s.upc.hs.followsAccess = false → CoreFree s
  /-- No wait of the TIMER runs inside a packet. -/
  untimed : s.timer ≠ none → s.upc.hs = .setSave ∧ s.upc.txIdx = 0
  /-- The write outstanding at the first line of a wait is the one the wait follows. -/
  pending : ∀ r v, s.port = .req (.write r v) ∨ s.port = .atCtrl (.write r v) → ∀ q, s.upc.hs.waitsAfter = some q → r = q
  /-- During a wait the trace ends with the write it follows and not-ready reads. -/
  polling : ∀ q, s.upc.hs.waitsAfter = some q →
    s.port = .idle ∨ s.port = .req .readReady ∨ s.port = .atCtrl .readReady → Polled q s.trace
  /-- A value at hand is that of the trace's last read. -/
  answered : ∀ q v, s.upc.hs.waitsAfter = some q → s.port = .got v → ∃ tr, s.trace = tr ++ [rEvent v] ∧ Polled q tr
  /-- At WRITE a poll since SET's write has answered ready, and at RESTORE a poll since the write of LP_TX has. -/
  ready : ∀ q, s.upc.hs.hasWaitedAfter = some q → ReadySince q s.trace
  /-- While the RESTORE of the byte before is outstanding, it is a write of DSI_CTL after a ready poll. -/
  restoring : ∀ r v, s.upc.hs.inSet = true → 0 < s.upc.txIdx →
    s.port = .req (.write r v) ∨ s.port = .atCtrl (.write r v) → r = .dsiCtl ∧ ReadySince .lpTx s.trace
  /-- Once it is answered, it is the trace's last event; SET goes on only then. -/
  restored : s.upc.hs.inSet = true → 0 < s.upc.txIdx → s.port = .idle →
    ∃ tr v, s.trace = tr ++ [wEvent .dsiCtl v] ∧ ReadySince .lpTx tr

/-- `TxAfterReady` with what it takes to be kept by every step: a value the PORT holds is that of the last read of the
trace; when the CORE is about to write LP_TX it runs next, and the trace ends with a ready read, as it does while that write
is outstanding. -/
structure TxInv (s : State) : Prop where
  trace : TxAfterReady s.trace
  got : ∀ v, s.port = .got v → ∃ pre, s.trace = pre ++ [.read (some v)]
  about : s.st = .exec → s.upc.hs = .txWrite →
    CoreFree s ∧ ∃ pre r, s.trace = pre ++ [r] ∧ r.isReadyRead = true
  issued : ∀ v, s.port = .req (.write .lpTx v) ∨ s.port = .atCtrl (.write .lpTx v) →
    ∃ pre r, s.trace = pre ++ [r] ∧ r.isReadyRead = true
  order : s.st = .exec → HandshakeOrder s

/-! ## The bytes and the traces of the spec's lists -/

/-- The bytes an instruction puts on the wire, from the layouts of R78 and R79 and the reversed values of R161 and of the
opcode table's notes; none for an instruction that is not only a packet or a wire item. -/
def wireBytes (i : Instr) (c : Cur) : Option (List Byte) :=
  match i with
  | .sendShort t w0 w1 => some [0xE1, rev8 t, rev8 w0, rev8 w1, rev8 ((ecc6 (w1 ++ w0 ++ t)).setWidth 8)]
  | .shortPacket t w0 w1 => some [0xE1, rev8 t, rev8 w0, rev8 w1, rev8 ((ecc6 (w1 ++ w0 ++ t)).setWidth 8)]
  | .dcsNop => some [0xE1, 0xA0, 0x00, 0x00, 0x50]
  | .dcsSleepOut => some [0xE1, 0xA8, 0x88, 0x00, 0xA4]
  | .dcsDisplayOn => some [0xE1, 0xA8, 0x94, 0x00, 0xF0]
  | .dcsExitIdle => some [0xE1, 0xA8, 0x1C, 0x00, 0xCC]
  | .sendLong isDcs => some (longWireBytes isDcs c.pl (if c.crcReal then crc16 c.pl else 0))
  | .dcsLong => some (longWireBytes true c.pl (if c.crcReal then crc16 c.pl else 0))
  | .genLong => some (longWireBytes false c.pl (if c.crcReal then crc16 c.pl else 0))
  | .longPacket isDcs p k => some (longWireBytes isDcs p k)
  | .lpTxWord b => some [b]
  | .lpPreamble => some [0xE1]
  | .dtDcsShortNoparam => some [0xA0]
  | .dtDcsShortWrite => some [0xA8]
  | .dtDcsLongWrite => some [0x9C]
  | .dtGenericLongWrite => some [0x94]
  | .dcsCmdNop => some [0x00]
  | .dcsCmdSleepOut => some [0x88]
  | .dcsCmdDisplayOn => some [0x94]
  | .dcsCmdExitIdleMode => some [0x1C]
  | .rev8 _ => none
  | .ecc6 _ => none
  | .crc16 => none
  | .bringUp => none
  | .illegal _ => none
where
  /-- The layout of R79, with type 0x9C or 0x94 on the wire. -/
  longWireBytes (isDcs : Bool) (p : List Byte) (k : Half) : List Byte :=
    let type : Byte := if isDcs then 0x39 else 0x29
    let len : Byte := BitVec.ofNat 8 p.length
    [0xE1, (if isDcs then 0x9C else 0x94), rev8 len, 0x00, rev8 ((ecc6 (0#8 ++ len ++ type)).setWidth 8)]
      ++ p.map rev8 ++ [rev8 (k.extractLsb' 0 8), rev8 (k.extractLsb' 8 8)]

/-- The value a packet command returns in `RESULT` (R32); none for a wire item, which returns nothing. -/
def wireResult (i : Instr) (c : Cur) : Option Half :=
  match i with
  | .sendShort t w0 w1 => some ((ecc6 (w1 ++ w0 ++ t)).setWidth 16)
  | .dcsNop => some 0x000A
  | .dcsSleepOut => some 0x0025
  | .dcsDisplayOn => some 0x000F
  | .dcsExitIdle => some 0x0033
  | .sendLong _ => some (crc16 c.pl)
  | .dcsLong => some (crc16 c.pl)
  | .genLong => some (crc16 c.pl)
  | .rev8 _ => none
  | .ecc6 _ => none
  | .crc16 => none
  | .bringUp => none
  | .illegal _ => none
  | .lpTxWord _ => none
  | .shortPacket _ _ _ => none
  | .longPacket _ _ _ => none
  | .lpPreamble => none
  | .dtDcsShortNoparam => none
  | .dtDcsShortWrite => none
  | .dtDcsLongWrite => none
  | .dtGenericLongWrite => none
  | .dcsCmdNop => none
  | .dcsCmdSleepOut => none
  | .dcsCmdDisplayOn => none
  | .dcsCmdExitIdleMode => none

/-- The instruction is SEND_LONG or a pseudo-instruction of it: its program begins with the length check (R129). -/
def Instr.checksLength : Instr → Bool
  | .sendLong _ => true
  | .dcsLong => true
  | .genLong => true
  | .rev8 _ => false
  | .ecc6 _ => false
  | .crc16 => false
  | .sendShort _ _ _ => false
  | .bringUp => false
  | .dcsNop => false
  | .dcsSleepOut => false
  | .dcsDisplayOn => false
  | .dcsExitIdle => false
  | .illegal _ => false
  | .lpTxWord _ => false
  | .shortPacket _ _ _ => false
  | .longPacket _ _ _ => false
  | .lpPreamble => false
  | .dtDcsShortNoparam => false
  | .dtDcsShortWrite => false
  | .dtDcsLongWrite => false
  | .dtGenericLongWrite => false
  | .dcsCmdNop => false
  | .dcsCmdSleepOut => false
  | .dcsCmdDisplayOn => false
  | .dcsCmdExitIdleMode => false

/-- The line of the program that sends the instruction's bytes: the first, or the second after a length check. -/
def sendLineOf (i : Instr) : Nat := if Instr.checksLength i then 1 else 0

/-- The trace of LP_WRITE_BYTE(b) begun with `dsi_ctl` = `v`, whose two waits read `reads1` and `reads2` (R121). -/
def handshakeTrace (v : Word) (reads1 reads2 : List Word) (b : Byte) : List Event :=
  [wEvent .dsiCtl (v ||| Config.lpSendMask)] ++ reads1.map rEvent
    ++ [wEvent .lpTx (0x00000100#32 ||| b.setWidth 32)] ++ reads2.map rEvent
    ++ [wEvent .dsiCtl v]

/-- The values the ready polls of a packet read: for each byte, those of WAIT1 and those of WAIT2. -/
abbrev Polls := List (List Word × List Word)

/-- The trace of a whole packet sent with `dsi_ctl` = `v` at its start (R121, R126). -/
def packetTrace (v : Word) (polls : Polls) (bytes : List Byte) : List Event :=
  (bytes.zip polls).flatMap fun bp => handshakeTrace v bp.2.1 bp.2.2 bp.1

/-- The values the polls read, in the order of the reads. -/
def pollValues (polls : Polls) : List Word := polls.flatMap fun p => p.1 ++ p.2

/-- The accesses of a packet: per byte three writes and the polls (R131). -/
def packetAccesses (polls : Polls) : Nat := (polls.map fun p => 3 + (p.1.length + p.2.length)).sum

/-- The steps a packet takes, those of the CORE, the PORT and the CONTROLLER together (note 4): per byte twelve and five
more for each poll. -/
def packetSteps (polls : Polls) : Nat := (polls.map fun p => 12 + 5 * (p.1.length + p.2.length)).sum

/-- One wait of WAIT_READY that ends ready: `reads` is some not-ready values, fewer than the bound if there is one, and
then a ready value (R122). -/
def WaitEndsReady (reads : List Word) : Prop :=
  ∃ nots r, reads = nots ++ [r] ∧ (∀ v ∈ nots, isReady v = false) ∧ isReady r = true ∧
    (match Config.hsTimeout with | none => True | some n => nots.length < n)

/-- One wait of WAIT_READY that still goes on after its reads: not-ready values, fewer than the bound if there is one. -/
def WaitGoesOn (reads : List Word) : Prop :=
  (∀ v ∈ reads, isReady v = false) ∧ (match Config.hsTimeout with | none => True | some n => reads.length < n)

/-- Every wait of the packet ends ready. -/
def PollsEndReady (polls : Polls) : Prop := ∀ p ∈ polls, WaitEndsReady p.1 ∧ WaitEndsReady p.2

/-- Where the access that fails stands in a handshake: `w1` and `w2` are the values the two waits have read before it, and
`oks` the number of accesses answered `ok` before it (R204). -/
def FailsIn (phase : HsPhase) (w1 w2 : List Word) (oks : Nat) : Prop :=
  match phase with
  | .set => w1 = [] ∧ w2 = [] ∧ oks = 0
  | .wait1 => WaitGoesOn w1 ∧ w2 = [] ∧ oks = 1 + w1.length
  | .write => WaitEndsReady w1 ∧ w2 = [] ∧ oks = 1 + w1.length
  | .wait2 => WaitEndsReady w1 ∧ WaitGoesOn w2 ∧ oks = 2 + (w1.length + w2.length)
  | .restore => WaitEndsReady w1 ∧ WaitEndsReady w2 ∧ oks = 2 + (w1.length + w2.length)

/-- The access of a phase of LP_WRITE_BYTE(b) begun with `dsi_ctl` = `v` (R121). -/
def phaseAccess (phase : HsPhase) (v : Word) (b : Byte) : Access :=
  match phase with
  | .set => .write .dsiCtl (v ||| Config.lpSendMask)
  | .wait1 => .readReady
  | .write => .write .lpTx (0x00000100#32 ||| b.setWidth 32)
  | .wait2 => .readReady
  | .restore => .write .dsiCtl v

/-- The trace of a completed BRING_UP as R166 lists it; `p1` to `p4` are the polls of its four packets. -/
def bringUpTrace (cfg : PanelConfig) (p1 p2 p3 p4 : Polls) : List Event :=
  [wEvent .timingCtl 0x00000000#32, wEvent .dsiLaneCtl cfg.laneConfig, wEvent .dsiCtl 0x00000000#32,
   wEvent .dsiTickdiv cfg.lpDivider, wEvent .dsiCtl (Config.laneEnc cfg.numLanes),
   wEvent .dsiGpio Config.gpioAvddOn, dEvent .avdd,
   wEvent .dsiGpio Config.gpioResetAssert, dEvent .rstAssert,
   wEvent .dsiGpio Config.gpioResetRelease, dEvent .rstRelease,
   dEvent .clk, wEvent .dsiCtl (Config.laneEnc cfg.numLanes ||| 1#32)]
  ++ packetTrace (Config.laneEnc cfg.numLanes ||| 1#32) p1 [0xE1, 0xA0, 0x00, 0x00, 0x50]
  ++ packetTrace (Config.laneEnc cfg.numLanes ||| 1#32) p2 [0xE1, 0xA8, 0x88, 0x00, 0xA4] ++ [dEvent .cmdDelay]
  ++ packetTrace (Config.laneEnc cfg.numLanes ||| 1#32) p3 [0xE1, 0xA8, 0x94, 0x00, 0xF0] ++ [dEvent .cmdDelay]
  ++ packetTrace (Config.laneEnc cfg.numLanes ||| 1#32) p4 [0xE1, 0xA8, 0x1C, 0x00, 0xCC] ++ [dEvent .cmdDelay]
  ++ [wEvent .hFrontPorch (Config.hFpFn cfg), wEvent .hBackPorch (Config.hBpFn cfg),
      wEvent .hActive (cfg.width.setWidth 32 * 3#32), wEvent .hTotal (Config.hTotalFn cfg),
      wEvent .vBackPorch (cfg.vBackPorch.setWidth 32),
      wEvent .vFrontPorch (cfg.vBackPorch.setWidth 32 + cfg.height.setWidth 32),
      wEvent .vActive (cfg.vBackPorch.setWidth 32 + cfg.height.setWidth 32 + cfg.vFrontPorch.setWidth 32),
      wEvent .vTotal (cfg.vBackPorch.setWidth 32 + cfg.height.setWidth 32 + cfg.vFrontPorch.setWidth 32),
      wEvent .timingCtl 1#32]

/-- The effect of issuing `PortWrite(OFF_r, v)`. -/
def wr (r : Reg) (v : Word) (s : State) : State := { s with port := .req (.write r v) }

/-- The effect of `PortWrite(OFF_DSI_CTL, dsi_ctl)`. -/
def wrShadow (s : State) : State := { s with port := .req (.write .dsiCtl s.dsiCtl) }

/-- The effect of `Delay(t)`. -/
def wait (t : DelayTag) (s : State) : State := { s with timer := some ⟨t, none⟩ }

/-- The lines of the BRING_UP program as R151 lists them, by number, with what each does besides going on with the next
line; the lines that check, send a packet or end the command are not among them. -/
def bringUpEffects (cfg : PanelConfig) : List (Nat × (State → State)) :=
  [(1, wr .timingCtl 0x00000000#32),
   (2, wr .dsiLaneCtl cfg.laneConfig),
   (3, fun s => { s with dsiCtl := 0x00000000#32 }),
   (4, wrShadow),
   (5, wr .dsiTickdiv cfg.lpDivider),
   (6, fun s => { s with dsiCtl := Config.laneEnc cfg.numLanes }),
   (7, wrShadow),
   (8, wr .dsiGpio Config.gpioAvddOn),
   (9, wait .avdd),
   (10, wr .dsiGpio Config.gpioResetAssert),
   (11, wait .rstAssert),
   (12, wr .dsiGpio Config.gpioResetRelease),
   (13, wait .rstRelease),
   (14, fun s => { s with dsiCtl := s.dsiCtl ||| 0x00000001#32 }),
   (15, wait .clk),
   (16, wrShadow),
   (19, wait .cmdDelay),
   (21, wait .cmdDelay),
   (23, wait .cmdDelay)]
  ++ [(24, wr .hFrontPorch (Config.hFpFn cfg)),
   (25, wr .hBackPorch (Config.hBpFn cfg)),
   (26, wr .hActive (cfg.width.setWidth 32 * 3#32)),
   (27, wr .hTotal (Config.hTotalFn cfg)),
   (28, wr .vBackPorch (cfg.vBackPorch.setWidth 32)),
   (29, wr .vFrontPorch (cfg.vBackPorch.setWidth 32 + cfg.height.setWidth 32)),
   (30, wr .vActive (cfg.vBackPorch.setWidth 32 + cfg.height.setWidth 32 + cfg.vFrontPorch.setWidth 32)),
   (31, wr .vTotal (cfg.vBackPorch.setWidth 32 + cfg.height.setWidth 32 + cfg.vFrontPorch.setWidth 32)),
   (32, wr .timingCtl 0x00000001#32)]

/-- The bytes of the packets BRING_UP sends, by the line that sends them (R161). -/
def bringUpPacket (n : Nat) : Option (List Byte) :=
  match n with
  | 17 => some [0xE1, 0xA0, 0x00, 0x00, 0x50]
  | 18 => some [0xE1, 0xA8, 0x88, 0x00, 0xA4]
  | 20 => some [0xE1, 0xA8, 0x94, 0x00, 0xF0]
  | 22 => some [0xE1, 0xA8, 0x1C, 0x00, 0xCC]
  | _ => none

end Sys2Proof.Machine
end

