-- ==== Sys2Proof/Certificates/Slice0/Obligations.lean ====
section
/-! DEFINITION. The statements about the machine, from the numbered rules of spec/. -/

open Sys2Proof Sys2Proof.Machine

/-! ## Encoding -/

/-- Decoding the encoding of a well-formed instruction gives its canonical form: the instruction itself, but for the
second names of R77 (their expansion), the byte 0x29 (two roles in R82; note 9) and the transmit word, whose own
reader gives it back. -/
def Obligations.DecodeEncodeRoundTrip : Prop :=
  (∀ i : Instr, i.wellFormed = true → decode (encode i) = .ok i.canonical) ∧
  (∀ b : Byte, decodeTxWord (txWord b) = some (.lpTxWord b))

/-- Every command word, legal or not, is the encoding of what it decodes to: no bit of a word is dropped. -/
def Obligations.CommandWordsReencode : Prop :=
  ∀ w : Word, encode (decodeCommand w) = wordBytes w

/-- At most one row of R72 matches a word, and a word is legal exactly when one does. -/
def Obligations.EveryWordMatchesAtMostOneRow : Prop :=
  ∀ w : Word, (commandRows.filter (fun r => r.hits w)).length ≤ 1 ∧
    ((commandRows.filter (fun r => r.hits w)).length = 1 ↔ decodeCommand w ≠ .illegal w)

/-- R73: each argument is its field, unsigned, not scaled and not shifted. -/
def Obligations.OperandsAreTheirFields : Prop :=
  ∀ a2 a1 a0 : Byte,
    decodeCommand (commandWord 0 0 a0 0x01) = .rev8 a0 ∧
    decodeCommand (commandWord a2 a1 a0 0x02) = .ecc6 (a2 ++ a1 ++ a0) ∧
    decodeCommand (commandWord a2 a1 a0 0x04) = .sendShort a0 a1 a2 ∧
    decodeCommand (commandWord 0 0 (a0 &&& 1) 0x05) = .sendLong (a0.getLsbD 0)

/-- Words written out from R72 and R75 decode to the commands, or the illegal word, they stand for; and the byte 0xE1
alone is read as the preamble of R82, which is no command (that one byte is read as a wire byte is the model's choice, log entry 9). -/
def Obligations.WrittenWordsDecode : Prop :=
  decodeTableWord 32 0x00000501 = some (.rev8 0x05) ∧
  decodeTableWord 32 0x12345602 = some (.ecc6 0x123456) ∧
  decodeTableWord 32 0x00000003 = some .crc16 ∧
  decodeTableWord 32 0x01361504 = some (.sendShort 0x15 0x36 0x01) ∧
  decodeTableWord 32 0x00000105 = some (.sendLong true) ∧
  decodeTableWord 32 0x00000006 = some .bringUp ∧
  decodeTableWord 32 0x01000501 = some (.illegal 0x01000501) ∧
  decodeTableWord 8 0xE1 = some .lpPreamble

/-- R80: bits 31:9 of a transmit word are 0, bit 8 is the marker, bits 7:0 are the byte; and the words of that match and
mask are the transmit words. -/
def Obligations.TransmitWordIsTheMarkedByte : Prop :=
  (∀ b : Byte, (txWord b).extractLsb' 9 23 = 0 ∧ (txWord b).getLsbD 8 = true ∧ (txWord b).extractLsb' 0 8 = b) ∧
  (∀ w : Word, w &&& 0xFFFFFF00 = 0x00000100 ↔ ∃ b : Byte, w = txWord b)

/-! ## The primitives -/

/-- R100: bit i of REV8(b) is bit 7 - i of b, and REV8 is its own inverse. -/
def Obligations.Rev8ReflectsEveryBit : Prop :=
  ∀ b : Byte, (∀ i, i < 8 → (rev8 b).getLsbD i = b.getLsbD (7 - i)) ∧ rev8 (rev8 b) = b

/-- R101: ECC bit i is 1 exactly when the number of ones of the header under mask i is odd; the masks are those the rule
lists. -/
def Obligations.EccBitsAreMaskParities : Prop :=
  ∀ (h : Header) (i : Nat) (m : Header), [0xF12CB7, 0xF2555B, 0x749A6D, 0xB8E38E, 0xDF03F0, 0xEFFC00][i]? = some m →
    ((ecc6 h).getLsbD i = true ↔ (List.range 24).countP (fun k => (h &&& m).getLsbD k) % 2 = 1)

/-- The columns of R102, header bits 0 to 23, as ECC bits 5..0. -/
def eccColumns : List (BitVec 6) :=
  [0b000111, 0b001011, 0b001101, 0b001110, 0b010011, 0b010101, 0b010110, 0b011001,
   0b011010, 0b011100, 0b100011, 0b100101, 0b100110, 0b101001, 0b101010, 0b101100,
   0b110001, 0b110010, 0b110100, 0b111000, 0b011111, 0b101111, 0b110111, 0b111011]

/-- R102: bit i of column k is bit k of mask i, flipping header bit k flips the ECC by column k, the 24 columns are
nonzero and pairwise distinct, ECC6 is linear, and so a change of one or of two header bits changes the ECC. -/
def Obligations.EccColumnsDetectOneAndTwoBitChanges : Prop :=
  (∀ (k i : Nat) (c : BitVec 6) (m : Header), eccColumns[k]? = some c →
    [0xF12CB7, 0xF2555B, 0x749A6D, 0xB8E38E, 0xDF03F0, 0xEFFC00][i]? = some m → c.getLsbD i = m.getLsbD k) ∧
  (∀ a b : Header, ecc6 (a ^^^ b) = ecc6 a ^^^ ecc6 b) ∧
  (∀ (h : Header) (k : Nat) (c : BitVec 6), eccColumns[k]? = some c → ecc6 (h ^^^ (1#24 <<< k)) = ecc6 h ^^^ c) ∧
  eccColumns.length = 24 ∧ eccColumns.Nodup ∧ (0 : BitVec 6) ∉ eccColumns ∧
  (∀ (h : Header) (k : Nat), k < 24 → ecc6 (h ^^^ (1#24 <<< k)) ≠ ecc6 h) ∧
  (∀ (h : Header) (j k : Nat), j < 24 → k < 24 → j ≠ k → ecc6 (h ^^^ (1#24 <<< j) ^^^ (1#24 <<< k)) ≠ ecc6 h)

/-- R104: the bit-serial generator, written out here as the rule writes it, gives the same CRC as R103's loop. -/
def Obligations.BitSerialCrcAgrees : Prop :=
  ∀ p : List Byte,
    (p.flatMap fun b => (List.range 8).map b.getLsbD).foldl
        (fun (c : Half) (d : Bool) =>
          let fb := c.getLsbD 0 ^^ d
          let shifted := c >>> 1
          if fb then shifted ^^^ 0x8408#16 else shifted) 0xFFFF#16 = crc16 p ∧
    crc16Serial p = crc16 p

/-- R103's corner cases: the empty list leaves the seed, and a payload followed by its CRC, low byte first, has CRC 0. -/
def Obligations.CrcResidueIsZero : Prop :=
  crc16 [] = 0xFFFF ∧ ∀ p : List Byte, crc16 (p ++ [(crc16 p).extractLsb' 0 8, (crc16 p).extractLsb' 8 8]) = 0x0000

/-- R81: before reversal bits 5:0 of the ECC byte are the ECC and bits 7:6 are 0; after reversal bit 7 - i is ECC bit i,
and bits 1:0 are 0. -/
def Obligations.EccByteBitsOnTheWire : Prop :=
  ∀ h : Header, (eccByte h).extractLsb' 0 6 = ecc6 h ∧ (eccByte h).extractLsb' 6 2 = 0 ∧
    (∀ i, i < 6 → (rev8 (eccByte h)).getLsbD (7 - i) = (ecc6 h).getLsbD i) ∧
    (rev8 (eccByte h)).getLsbD 0 = false ∧ (rev8 (eccByte h)).getLsbD 1 = false

/-- A long packet of L payload bytes has 5 + L + 2 bytes; without the real CRC its last two bytes are 0 (R79, R130). -/
def Obligations.LongPacketLengthAndZeroChecksum : Prop :=
  ∀ (isDcs : Bool) (p : List Byte),
    (∀ c : Half, (longPacketBytes isDcs p c).length = 5 + p.length + 2) ∧
    (longPacketBytes isDcs p (transmittedChecksum false p)).drop (5 + p.length) = [0x00, 0x00] ∧
    (longPacketBytes isDcs p (transmittedChecksum true p)).drop (5 + p.length) =
      [rev8 ((crc16 p).extractLsb' 0 8), rev8 ((crc16 p).extractLsb' 8 8)]

/-- R163: the timing sums do not overflow 32 bits; each value is the exact sum or product. -/
def Obligations.TimingValuesDoNotOverflow : Prop :=
  ∀ cfg : PanelConfig,
    (hActiveValue cfg).toNat = cfg.width.toNat * 3 ∧
    (vBackPorchValue cfg).toNat = cfg.vBackPorch.toNat ∧
    (vFrontPorchValue cfg).toNat = cfg.vBackPorch.toNat + cfg.height.toNat ∧
    (vActiveValue cfg).toNat = cfg.vBackPorch.toNat + cfg.height.toNat + cfg.vFrontPorch.toNat

/-- The constraints that R9 puts on the OPEN parameters hold for every value of them. R9 constrains LANE_ENC(n) for n in 1..4
only; that the model's LANE_ENC meets the same constraint at every other n too is the model's construction (log entry 3, DEDUCED),
and no step reads it there. -/
def Obligations.ParametersMeetTheirConstraints : Prop :=
  (∀ r q : Reg, r ≠ q → Config.off r ≠ Config.off q) ∧
  (∀ r : Reg, (Config.off r).extractLsb' 0 2 = 0) ∧ Config.readyOff.extractLsb' 0 2 = 0 ∧
  Config.readyMask ≠ 0 ∧
  (∃ k, 1 ≤ k ∧ k < 32 ∧ Config.lpSendMask = 1#32 <<< k) ∧
  (∀ n, (Config.laneEnc n).extractLsb' 0 8 = 0 ∧ Config.laneEnc n &&& Config.lpSendMask = 0) ∧
  (match Config.hsTimeout with | none => True | some n => 1 ≤ n)

/-! ## Commands of one step -/

/-- R106: REV8, ECC6 and CRC16 each take one CORE step after acceptance, which writes RESULT, DONE and st and nothing
else; a CRC16 with PLEN > 255 aborts instead. -/
def Obligations.PrimitiveCommandsTakeOneStep : Prop :=
  ∀ s : State, CoreFree s → s.upc = Upc.first →
    (∀ b, Sys2Proof.Machine.exec (.rev8 b) s =
      .next { s with result := (rev8 b).setWidth 16, isDone := true, st := .idle }) ∧
    (∀ h, Sys2Proof.Machine.exec (.ecc6 h) s =
      .next { s with result := (ecc6 h).setWidth 16, isDone := true, st := .idle }) ∧
    (s.cur.plen.toNat ≤ 255 → Sys2Proof.Machine.exec .crc16 s =
      .next { s with result := crc16 s.cur.pl, isDone := true, st := .idle }) ∧
    (255 < s.cur.plen.toNat → Sys2Proof.Machine.exec .crc16 s =
      .next { s with err := 5, isDone := true, st := .idle })

/-- R105: what REV8, ECC6 and CRC16 return depends on their operands alone: not on `dsi_ctl`, `crc_real`, the CONTROLLER
or anything else of the state. -/
def Obligations.PrimitivesReadOnlyTheirOperands : Prop :=
  ∀ s u : State, CoreFree s → CoreFree u → s.upc = Upc.first → u.upc = Upc.first →
    s.cur.plen = u.cur.plen → s.cur.pl = u.cur.pl → s.cur.plen.toNat ≤ 255 →
    ∀ i, (i = .crc16 ∨ (∃ b, i = .rev8 b) ∨ (∃ h, i = .ecc6 h)) →
      ∃ t v, Sys2Proof.Machine.exec i s = .next t ∧ Sys2Proof.Machine.exec i u = .next v ∧ t.result = v.result ∧
        t.dsiCtl = s.dsiCtl ∧ v.dsiCtl = u.dsiCtl

/-- R75, R207: the illegal words are those R75 lists; such a word raises IllegalCommand in its first step, with no access
and no change but ERR, DONE and st. -/
def Obligations.IllegalWordsRaiseIllegalCommand : Prop :=
  (∀ w : Word, decodeCommand w = .illegal w ↔ illegalWord w = true) ∧
  (∀ (w : Word) (s : State), CoreFree s → s.upc = Upc.first →
    Sys2Proof.Machine.exec (.illegal w) s = .next { s with err := 4, isDone := true, st := .idle })

/-! ## The packet commands, line by line -/

/-- The bytes that instruction `i` sends at the line `upc` names, from the spec's layouts; none at another line. -/
def sendsAt (i : Instr) (s : State) : Option (List Byte) :=
  if i = .bringUp then bringUpPacket s.upc.line
  else if s.upc.line = sendLineOf i then wireBytes i s.cur else none

/-- R121, R122: every instruction that sends bytes runs LP_WRITE_BYTE line by line: SEND_SHORT, SEND_LONG, their
pseudo-instructions, the emitted items, and BRING_UP at its packet lines. Each clause is one CORE step and gives the whole
next state, so what it does not name is unchanged. A step is a line of the pseudocode, but for two things that are the
model's choices: the ready test and the count of `poll_n`, two lines of R122, are one step (log entry 4), and that an emitted item
runs alone, by LP_WRITE_BYTE, is the model's (log entry 8). That `poll_n` is cleared and counted without a bound too is the model's
choice (log entry 22). -/
def Obligations.SendersRunTheHandshake : Prop :=
  ∀ (i : Instr) (s : State) (bytes : List Byte) (b : Byte),
    sendsAt i s = some bytes → bytes[s.upc.txIdx]? = some b → s.timer = none →
    let at_ := fun p => (⟨s.upc.line, s.upc.txIdx, p⟩ : Upc)
    let timeout := { s with err := 2, isDone := true, st := .idle }
    (s.port = .idle →
      (s.upc.hs = .setSave → Sys2Proof.Machine.exec i s = .next { s with hsSaved := s.dsiCtl, upc := at_ .setShadow }) ∧
      (s.upc.hs = .setShadow → Sys2Proof.Machine.exec i s =
        .next { s with dsiCtl := s.dsiCtl ||| Config.lpSendMask, upc := at_ .setWrite }) ∧
      (s.upc.hs = .setWrite → Sys2Proof.Machine.exec i s =
        .next { s with port := .req (.write .dsiCtl s.dsiCtl), upc := at_ .wait1Clear }) ∧
      (s.upc.hs = .wait1Clear → Sys2Proof.Machine.exec i s = .next { s with pollN := 0, upc := at_ .wait1Read }) ∧
      (s.upc.hs = .wait1Read → Sys2Proof.Machine.exec i s =
        .next { s with port := .req .readReady, upc := at_ .wait1Test }) ∧
      (s.upc.hs = .wait1Bound → Sys2Proof.Machine.exec i s =
        (match Config.hsTimeout with
          | none => .next { s with upc := at_ .wait1Read }
          | some n => if n ≤ s.pollN then .next timeout else .next { s with upc := at_ .wait1Read })) ∧
      (s.upc.hs = .txWrite → Sys2Proof.Machine.exec i s =
        .next { s with port := .req (.write .lpTx (0x00000100#32 ||| b.setWidth 32)), upc := at_ .wait2Clear }) ∧
      (s.upc.hs = .wait2Clear → Sys2Proof.Machine.exec i s = .next { s with pollN := 0, upc := at_ .wait2Read }) ∧
      (s.upc.hs = .wait2Read → Sys2Proof.Machine.exec i s =
        .next { s with port := .req .readReady, upc := at_ .wait2Test }) ∧
      (s.upc.hs = .wait2Bound → Sys2Proof.Machine.exec i s =
        (match Config.hsTimeout with
          | none => .next { s with upc := at_ .wait2Read }
          | some n => if n ≤ s.pollN then .next timeout else .next { s with upc := at_ .wait2Read })) ∧
      (s.upc.hs = .restoreShadow → Sys2Proof.Machine.exec i s =
        .next { s with dsiCtl := s.hsSaved, upc := at_ .restoreWrite }) ∧
      (s.upc.hs = .restoreWrite → Sys2Proof.Machine.exec i s =
        .next { s with
          port := .req (.write .dsiCtl s.dsiCtl)
          upc := if s.upc.txIdx + 1 < bytes.length then ⟨s.upc.line, s.upc.txIdx + 1, .setSave⟩
            else ⟨s.upc.line + 1, 0, .setSave⟩ })) ∧
    (∀ v, s.port = .got v →
      (s.upc.hs = .wait1Test → Sys2Proof.Machine.exec i s = .next
        (if v &&& Config.readyMask ≠ 0 then { s with port := .idle, upc := at_ .txWrite }
          else { s with port := .idle, pollN := s.pollN + 1, upc := at_ .wait1Bound })) ∧
      (s.upc.hs = .wait2Test → Sys2Proof.Machine.exec i s = .next
        (if v &&& Config.readyMask ≠ 0 then { s with port := .idle, upc := at_ .restoreShadow }
          else { s with port := .idle, pollN := s.pollN + 1, upc := at_ .wait2Bound })))

/-- R32: at its last line each command returns its value, sets DONE and goes to IDLE, and changes nothing else. -/
def Obligations.ResultOnCompletion : Prop :=
  ∀ s : State, CoreFree s →
    (s.upc = Upc.first → ∀ b, Sys2Proof.Machine.exec (.rev8 b) s =
      .next { s with result := (rev8 b).setWidth 16, isDone := true, st := .idle }) ∧
    (s.upc = Upc.first → ∀ h, Sys2Proof.Machine.exec (.ecc6 h) s =
      .next { s with result := (ecc6 h).setWidth 16, isDone := true, st := .idle }) ∧
    (s.upc = Upc.first → s.cur.plen.toNat ≤ 255 → Sys2Proof.Machine.exec .crc16 s =
      .next { s with result := crc16 s.cur.pl, isDone := true, st := .idle }) ∧
    (s.upc.line = 1 → ∀ t w0 w1, Sys2Proof.Machine.exec (.sendShort t w0 w1) s =
      .next { s with result := (ecc6 (w1 ++ w0 ++ t)).setWidth 16, isDone := true, st := .idle }) ∧
    (s.upc.line = 2 → ∀ isDcs, Sys2Proof.Machine.exec (.sendLong isDcs) s =
      .next { s with result := crc16 s.cur.pl, isDone := true, st := .idle }) ∧
    (s.upc.line = 33 → Sys2Proof.Machine.exec .bringUp s =
      .next { s with result := 0x0000, isDone := true, st := .idle })

/-- The end of the pseudo-instructions and of the emitted items: a pseudo-instruction returns what its expansion returns
(R32, R77); an emitted item run alone ends as a command ends and leaves RESULT alone (the model's choice, note 8). -/
def Obligations.PseudoAndItemsEndAsTheyShould : Prop :=
  ∀ (i : Instr) (s : State) (bytes : List Byte), CoreFree s → wireBytes i s.cur = some bytes →
    s.upc.line = sendLineOf i + 1 →
    Sys2Proof.Machine.exec i s =
      .next { s with result := (wireResult i s.cur).getD s.result, isDone := true, st := .idle }

/-- R201: CRC16 and SEND_LONG (under each of its names) raise InvalidLength at their first line when PLEN > 255, with no
access and no change to `dsi_ctl`; otherwise CRC16 returns its value and SEND_LONG goes on to its packet. -/
def Obligations.LongPayloadsRaiseInvalidLength : Prop :=
  ∀ s : State, CoreFree s → s.upc = Upc.first →
    (255 < s.cur.plen.toNat → Sys2Proof.Machine.exec .crc16 s =
      .next { s with err := 5, isDone := true, st := .idle }) ∧
    (s.cur.plen.toNat ≤ 255 → Sys2Proof.Machine.exec .crc16 s =
      .next { s with result := crc16 s.cur.pl, isDone := true, st := .idle }) ∧
    (∀ i : Instr, Instr.checksLength i = true →
      (255 < s.cur.plen.toNat → Sys2Proof.Machine.exec i s = .next { s with err := 5, isDone := true, st := .idle }) ∧
      (s.cur.plen.toNat ≤ 255 → Sys2Proof.Machine.exec i s = .next { s with upc := ⟨1, 0, .setSave⟩ }))

/-! ## BRING_UP, line by line -/

/-- R152, R202: B0 raises InvalidConfig exactly when `num_lanes` is outside 1..4, with no access and no wait; no other
field of the PanelConfig is checked. -/
def Obligations.LaneCountIsCheckedFirst : Prop :=
  ∀ s : State, CoreFree s → s.upc = Upc.first →
    (s.cur.cfg.numLanes.toNat < 1 ∨ 4 < s.cur.cfg.numLanes.toNat →
      Sys2Proof.Machine.exec .bringUp s = .next { s with err := 1, isDone := true, st := .idle }) ∧
    (1 ≤ s.cur.cfg.numLanes.toNat ∧ s.cur.cfg.numLanes.toNat ≤ 4 →
      Sys2Proof.Machine.exec .bringUp s = .next { s with upc := ⟨1, 0, .setSave⟩ })

/-- R151 to R165: each line of the BRING_UP program that does not check, send or end does what R151 writes there, and goes
on with the next line; nothing else changes. The order of the eight writes of B10 (lines 24 to 31) is the spec's own decision
D21, of which R162 says 'No claim should rest on that order': those lines' clauses rest on it. -/
def Obligations.BringUpRunsItsLinesInOrder : Prop :=
  ∀ (s : State) (n : Nat) (f : State → State), CoreFree s → s.upc.line = n → (n, f) ∈ bringUpEffects s.cur.cfg →
    Sys2Proof.Machine.exec .bringUp s = .next { f s with upc := ⟨n + 1, 0, .setSave⟩ }

/-! ## The CORE and the agents around it -/

/-- R63, R239: while an access is not answered or a wait is not completed, the CORE does nothing, whatever the
instruction. -/
def Obligations.TheCoreWaitsForItsAnswers : Prop :=
  ∀ (i : Instr) (s : State), (s.timer ≠ none ∨ (∃ a, s.port = .req a) ∨ (∃ a, s.port = .atCtrl a)) →
    Sys2Proof.Machine.exec i s = .next s

/-- A step of the CORE changes no CONTROLLER register, no input, no trace event and no answer of the outside world, and
keeps the latched command: the CORE reaches the CONTROLLER only by the accesses it issues (R50, R63, R167, R241). -/
def Obligations.TheCoreTouchesOnlyItsOwnState : Prop :=
  ∀ (i : Instr) (s t : State), Sys2Proof.Machine.exec i s = .next t →
    t.ctrl = s.ctrl ∧ t.trace = s.trace ∧ t.cur = s.cur ∧ t.rst = s.rst ∧ t.cmdValid = s.cmdValid ∧
    t.hostIn = s.hostIn ∧ t.hostQueue = s.hostQueue ∧ t.portAnswers = s.portAnswers ∧ t.readDraws = s.readDraws ∧
    t.timerWaits = s.timerWaits ∧ t.drawN = s.drawN

/-- A step of the running CORE is `exec` of the latched instruction: with no access outstanding, with a value of a ready read
at hand, and with an `err` answer at hand; and the step after a command's acceptance is `exec` of what its word decodes
to. -/
def Obligations.StepRunsTheDecodedCommand : Prop :=
  (∀ s : State, s.rst = false → s.st = .exec → s.timer = none →
    (s.port = .idle ∨ (∃ v, s.port = .got v) ∨ (∃ a, s.port = .failed a)) →
    step s = Sys2Proof.Machine.exec s.cur.instr s) ∧
  (∀ s : State, s.rst = false → CoreFree s → s.st = .idle → s.cmdValid = true →
    ∃ t, step s = .next t ∧ t.cur.instr = decodeCommand s.hostIn.cmd ∧
      step t = Sys2Proof.Machine.exec (decodeCommand s.hostIn.cmd) t)

/-- A placed command word is what the very next step runs (note 6). -/
def Obligations.PlacedWordRunsNext : Prop :=
  ∀ (s : State) (w : Word),
    let p := s.withFetchWord 32 w.toNat
    p.cur.instr = decodeCommand w ∧ step p = Sys2Proof.Machine.exec (decodeCommand w) p

/-- R70: a presented command is accepted in IDLE with exactly the effects the rule lists, the payload being the first PLEN
bytes (a byte that the HOST's list does not hold is 0, which is the model's choice, log entry 10; what becomes of `CMD_VALID` is
left to log entry 7 and not stated); and while a command runs nothing is accepted and
what the HOST presents is held. -/
def Obligations.AcceptanceLatchesTheCommand : Prop :=
  (∀ s : State, s.rst = false → CoreFree s → s.st = .idle → s.cmdValid = true →
    ∃ t pl, step s = .next t ∧ t = { s with
        cur := ⟨decodeCommand s.hostIn.cmd, s.hostIn.plen, pl, s.hostIn.cfg, s.hostIn.crcSendReal⟩
        isDone := false, err := 0, st := .exec, upc := Upc.first, cmdValid := t.cmdValid } ∧
      (s.hostIn.plen.toNat ≤ 255 → pl.length = s.hostIn.plen.toNat ∧
        ∀ k, k < s.hostIn.plen.toNat → pl[k]? = some (s.hostIn.payload.getD k 0))) ∧
  (∀ s t : State, s.st = .exec → step s = .next t → t.cmdValid = s.cmdValid ∧ t.hostIn = s.hostIn ∧
    t.hostQueue = s.hostQueue ∧ (s.rst = false → t.cur = s.cur))

/-- R167, R241: while a command runs, its latched PanelConfig, payload, PLEN and flag do not change, whatever the HOST
drives; and no move of the outside world but the assertion of RST changes the CORE, the access or the wait outstanding, the
CONTROLLER's registers or the trace. That no outside move changes a CONTROLLER register in IDLE either, where the spec does not
forbid another agent's access, is the model's choice (log entry 15). -/
def Obligations.ARunningCommandKeepsItsInputs : Prop :=
  (∀ s t : State, s.rst = false → s.st = .exec → step s = .next t → t.cur = s.cur) ∧
  (∀ s t : State, OutsideMove s t → t = raiseReset s ∨
    (t.cur = s.cur ∧ t.st = s.st ∧ t.upc = s.upc ∧ t.dsiCtl = s.dsiCtl ∧ t.hsSaved = s.hsSaved ∧ t.pollN = s.pollN ∧
     t.result = s.result ∧ t.err = s.err ∧ t.isDone = s.isDone ∧ t.port = s.port ∧ t.timer = s.timer ∧ t.ctrl = s.ctrl ∧
     t.trace = s.trace))

/-- R70, R218: in IDLE with nothing presented and RST released the CORE does nothing; the step is the HOST's, which presents
the next command of its queue with the inputs beside it, and changes nothing when it has none (the queue is the model's,
log entry 21). -/
def Obligations.AnIdleStepPresentsTheNextCommand : Prop :=
  ∀ s : State, s.rst = false → CoreFree s → s.st = .idle → s.cmdValid = false →
    (s.hostQueue = [] → step s = .next s) ∧
    (∀ c q, s.hostQueue = c :: q → step s = .next { s with cmdValid := true, hostIn := c, hostQueue := q })

/-- R11, R58: a write that the PORT answers `ok` reaches exactly its register, and is the next event of the trace; nothing
else of the machine changes. That this takes two steps, the PORT's and the CONTROLLER's, is the model's choice (log entry 4). -/
def Obligations.AWriteReachesExactlyItsRegister : Prop :=
  ∀ (s : State) (r : Reg) (v : Word) (pa : List Bool), s.rst = false → s.port = .req (.write r v) →
    s.portAnswers = true :: pa →
    ∃ t, Runs 2 s t ∧ t = { s with port := .idle, portAnswers := pa, ctrl := t.ctrl, trace := t.trace } ∧
      (∀ q, t.ctrl.get q = if q = r then v else s.ctrl.get q) ∧ t.trace = s.trace ++ [.write r v true]

/-- R11, R33: a ready read that the PORT answers `ok` returns the CONTROLLER's draw. That it changes no CONTROLLER register is
the model's choice (log entry 16; R59: 'The read at `READY_OFF` is taken to have no side effect, but the source does not say so'),
and so is that it takes two steps (log entry 4). -/
def Obligations.AReadReturnsTheDraw : Prop :=
  ∀ (s : State) (v : Word) (pa : List Bool) (rd : List Word), s.rst = false → s.port = .req .readReady →
    s.portAnswers = true :: pa → s.readDraws = v :: rd →
    Runs 2 s { s with port := .got v, portAnswers := pa, readDraws := rd, trace := s.trace ++ [.read (some v)] }

/-- R205: an access that the PORT answers `err`, a write or a poll, makes the next step of the CORE raise BusError: no
retry, no count toward the bound (`poll_n` stays), ERR, DONE and st written, the shadow, `hs_saved` and RESULT kept,
the failed access the last event of the trace. -/
def Obligations.APortErrorAborts : Prop :=
  ∀ (s : State) (a : Access) (pa : List Bool), s.rst = false → s.st = .exec → s.timer = none → s.port = .req a →
    s.portAnswers = false :: pa →
    ∃ t u, step s = .next t ∧ step t = .next u ∧
      u.err = 3 ∧ u.isDone = true ∧ u.st = .idle ∧ CoreFree u ∧
      u.dsiCtl = s.dsiCtl ∧ u.hsSaved = s.hsSaved ∧ u.result = s.result ∧ u.pollN = s.pollN ∧
      u.trace = s.trace ++ [failedEvent a]

/-- R58: an access that the PORT answers `err` leaves its target register alone unknown: a draw. That a failed read has a
target, the register that lies at READY_OFF if one does, is the model's reading (note 13). -/
def Obligations.AFailedAccessLosesItsTarget : Prop :=
  ∀ (s : State) (a : Access) (pa : List Bool), s.rst = false → s.port = .req a → s.portAnswers = false :: pa →
    ∃ t, step s = .next t ∧ t.port = .failed a ∧
      (∀ q, Config.off q ≠ a.offset → t.ctrl.get q = s.ctrl.get q) ∧
      (∀ q, Config.off q = a.offset → t.ctrl.get q = Config.unknownReg s.drawN)

/-- R205: an `err` answer that the CORE has not used makes every instruction abort with BusError, and the abort writes
ERR, DONE and st (and uses the answer up). -/
def Obligations.EveryInstructionAbortsOnAnError : Prop :=
  ∀ (i : Instr) (s : State) (a : Access), s.timer = none → s.port = .failed a →
    Sys2Proof.Machine.exec i s = .next { s with err := 3, isDone := true, st := .idle, port := .idle }

/-- R203: whatever the instruction and the line, a step of the CORE that changes ERR is the abort: it writes the code of the
kind raised to ERR, sets DONE and goes to IDLE, and changes nothing else: no access, no wait, nothing undone. The code tells the
kind by what may raise it (R200): an `err` answer, BRING_UP's lane check, the bound of a wait, an illegal word, a long payload. -/
def Obligations.OnlyTheAbortWritesErr : Prop :=
  ∀ (i : Instr) (s t : State), Sys2Proof.Machine.exec i s = .next t → t.err ≠ s.err →
    t = { s with err := t.err, isDone := true, st := .idle, port := .idle } ∧
    ((t.err = 1 ∧ i = .bringUp ∧ lanesInRange s.cur.cfg.numLanes = false) ∨
     (t.err = 2 ∧ sendsAt i s ≠ none ∧ ∃ n, Config.hsTimeout = some n ∧ n ≤ s.pollN) ∨
     (t.err = 3 ∧ ∃ a, s.port = .failed a) ∨
     (t.err = 4 ∧ ∃ w, i = .illegal w) ∨
     (t.err = 5 ∧ (i = .crc16 ∨ Instr.checksLength i = true) ∧ 255 < s.cur.plen.toNat))

/-- R11, R239: a wait goes on for as many steps as the TIMER says, with no bound on them, and then completes; nothing else
changes but the TIMER's own numbers and the trace. That the TIMER says so by a number of its own steps is the model's choice
(log entries 4 and 14). -/
def Obligations.AWaitEndsWhenTheTimerSays : Prop :=
  ∀ (s : State) (d : DelayTag) (n : Nat) (tw : List Nat), s.rst = false → s.port = .idle → s.timer = some ⟨d, none⟩ →
    s.timerWaits = n :: tw →
      Runs (n + 1) s { s with timer := none, timerWaits := tw, trace := s.trace ++ [.delay d] } ∧
      (∀ k, k ≤ n → ∃ t w, Runs k s t ∧ t.timer = some w ∧ w.tag = d)

/-- R242, R239: every wait completes. In every endless history of the machine, whatever the outside world does between the
steps, a wait that is running completes at a later state, where it is the next event of the trace, unless RST ends it first.
How the TIMER's fairness is built in is the model's choice (log entry 14). -/
def Obligations.EveryWaitCompletes : Prop :=
  ∀ f : Nat → State, History f → Inv (f 0) → ∀ (n : Nat) (w : Wait), (f n).timer = some w →
    ∃ m, n < m ∧ (f m).timer = none ∧
      ((f m).trace = (f n).trace ++ [.delay w.tag] ∨ ((f m).rst = true ∧ (f m).trace = (f n).trace))

/-- R34: when the CONTROLLER has performed a write of DSI_CTL, its DSI_CTL and the shadow agree; an outstanding write of
DSI_CTL always carries the shadow. -/
def Obligations.ShadowAndControllerAgreeAfterAWrite : Prop :=
  (∀ s t : State, ShadowWriteInv s → step s = .next t → ShadowWriteInv t) ∧
  (∀ (s t : State) (v : Word), ShadowWriteInv s → s.rst = false → s.port = .atCtrl (.write .dsiCtl v) →
    step s = .next t → t.ctrl.get .dsiCtl = t.dsiCtl)

/-! ## Reset -/

/-- R230: the values after reset that the spec gives. -/
def Obligations.ResetValues : Prop :=
  State.reset.st = .idle ∧ cmdReady State.reset = true ∧ busy State.reset = false ∧ State.reset.isDone = false ∧
  State.reset.err = 0 ∧ State.reset.result = 0x0000 ∧ State.reset.dsiCtl = 0x00000000

/-- R230: RST may be asserted in any state; from that state on, as long as it is asserted, and in the first state after it
is released, the CORE has its reset values: when it is raised, at every step while it is high, and in every state that steps
and outside moves reach from reset. That RST is a level which changes between two steps is the model's choice (log entry 19). -/
def Obligations.RstGivesTheResetValues : Prop :=
  (∀ s : State, (raiseReset s).rst = true ∧ AtReset (raiseReset s) ∧
    (releaseReset (raiseReset s)).rst = false ∧ AtReset (releaseReset (raiseReset s))) ∧
  (∀ s : State, s.rst = true → ∃ t, step s = .next t ∧ t.rst = true ∧ AtReset t ∧ AtReset (releaseReset t)) ∧
  (∀ s : State, Reach State.reset s → s.rst = true → AtReset s ∧ AtReset (releaseReset s))

/-- R231, R232: RST, when it is raised and at every step while it is high, issues no access and ends the running command's;
the CONTROLLER's registers keep their values, but for the target of an access in flight, which becomes a draw, and the
HOST's inputs and the trace stay. That a read in flight has a target is the model's reading (log entry 13), that an
interrupted access does not enter the trace is the model's choice (log entry 18), and so is that RST is a level (log entry 19). -/
def Obligations.RstTouchesNoRegister : Prop :=
  ∀ s t : State, (t = raiseReset s ∨ (s.rst = true ∧ step s = .next t)) →
    CoreFree t ∧ t.trace = s.trace ∧ t.cmdValid = s.cmdValid ∧ t.hostIn = s.hostIn ∧
    (∀ q, (∀ a, s.port = .req a ∨ s.port = .atCtrl a → Config.off q ≠ a.offset) → t.ctrl.get q = s.ctrl.get q) ∧
    (∀ q a, s.port = .req a ∨ s.port = .atCtrl a → Config.off q = a.offset → t.ctrl.get q = Config.unknownReg s.drawN)

/-! ## Invariants and whole-machine rules -/

/-- The invariants hold in the state after reset. What they say of `cur`, `upc` and `hs_saved`, whose reset values log entry 1
chooses, they say only while a command runs; the idle PORT and TIMER and the empty trace are R231's. -/
def Obligations.InvariantsHoldAtReset : Prop :=
  Inv State.reset ∧ ShadowInv State.reset ∧ HandshakeInv State.reset ∧ ShadowWriteInv State.reset ∧ TxInv State.reset

/-- Every step keeps the invariant, from every state that meets it. What it says of the latched payload it says while a command
runs; that the latched list has PLEN bytes even when the HOST's list is shorter rests on log entry 10. -/
def Obligations.EveryStepKeepsTheInvariant : Prop :=
  ∀ s t : State, Inv s → step s = .next t → Inv t

/-- Every move of the outside world keeps the invariants, from every state that meets them: the HOST's, the assertion and the
release of RST (R230), and the choice of the answers to come. -/
def Obligations.OutsideMovesKeepTheInvariants : Prop :=
  ∀ s t : State, OutsideMove s t →
    (Inv s → Inv t) ∧ (ShadowInv s → ShadowInv t) ∧ (HandshakeInv s → HandshakeInv t) ∧
    (ShadowWriteInv s → ShadowWriteInv t) ∧ (TxInv s → TxInv t)

/-- From a state that meets the invariant no step faults and none is refused. -/
def Obligations.InvariantStatesNeverStop : Prop :=
  ∀ s : State, Inv s → ∃ t, step s = .next t

/-- Steps and moves of the outside world, in any order, lead from the state after reset only to states that meet the
invariant, and none of them stops. The state after reset takes its values for `cur`, `upc`, `hs_saved`, `poll_n` and the
inputs from log entry 1; the invariant says nothing of them but while a command runs. -/
def Obligations.ReachableStatesGoOn : Prop :=
  ∀ s : State, Reach State.reset s → Inv s ∧ ∃ t, step s = .next t

/-- R23: the shadow never sets a bit other than CLK_EN, the lane bits and LP_SEND. The invariant that carries it says the
same of `hs_saved` once SET has saved the shadow in a running command, so it does not rest on the reset value that log entry 1
chooses for `hs_saved`. -/
def Obligations.ShadowSetsOnlyItsFields : Prop :=
  ∀ s t : State, ShadowInv s → step s = .next t → ShadowInv t

/-- R121, R34: during a handshake `hs_saved` holds the value before SET, the shadow is that value with LP_SEND set from
SET to RESTORE, and that value again at RESTORE. -/
def Obligations.HandshakeKeepsTheSavedShadow : Prop :=
  ∀ s t : State, HandshakeInv s → step s = .next t → HandshakeInv t

/-- R238, along every step, from every state that meets the invariants, and in every state that steps and moves of the
outside world reach from reset: in the trace every write of LP_TX comes directly after a poll that answered ready; the CORE
comes to write LP_TX only when, since SET's write, polls have been answered, the last of them ready; it comes to write
RESTORE's DSI_CTL only when a poll since the write of LP_TX has answered ready; and it begins the next byte's SET only when
no access is outstanding and the trace ends with the RESTORE of the byte before, answered `ok`. -/
def Obligations.EveryTransmitFollowsAReadyPoll : Prop :=
  (∀ s t : State, Inv s → TxInv s → step s = .next t → TxInv t) ∧
  (∀ s : State, Reach State.reset s → TxAfterReady s.trace ∧ (s.st = .exec →
    (s.upc.hs = .txWrite → CoreFree s ∧ ReadySince .dsiCtl s.trace) ∧
    (s.upc.hs = .restoreWrite → CoreFree s ∧ ReadySince .lpTx s.trace) ∧
    (s.upc.hs = .setShadow → 0 < s.upc.txIdx → CoreFree s ∧
      ∃ tr v, s.trace = tr ++ [wEvent .dsiCtl v] ∧ ReadySince .lpTx tr)))

/-- R24: only reset, the lines of B3, B4 and B7 of BRING_UP, and the SET and RESTORE lines of a handshake change
`dsi_ctl`, and each to the value the rule gives; and of the outside world's moves only the assertion of RST does (R230: the
reset is not in R24's list). -/
def Obligations.OnlyListedLinesWriteTheShadow : Prop :=
  (∀ s t : State, OutsideMove s t → t.dsiCtl ≠ s.dsiCtl → t = raiseReset s ∧ t.dsiCtl = 0) ∧
  ∀ s t : State, step s = .next t → t.dsiCtl ≠ s.dsiCtl →
    (s.rst = true ∧ t.dsiCtl = 0) ∨
    (s.st = .exec ∧ s.cur.instr = .bringUp ∧
      ((s.upc.line = 3 ∧ t.dsiCtl = 0) ∨ (s.upc.line = 6 ∧ t.dsiCtl = Config.laneEnc s.cur.cfg.numLanes) ∨
       (s.upc.line = 14 ∧ t.dsiCtl = s.dsiCtl ||| 1))) ∨
    (s.st = .exec ∧ sendsAt s.cur.instr s ≠ none ∧
      ((s.upc.hs = .setShadow ∧ t.dsiCtl = s.dsiCtl ||| Config.lpSendMask) ∨
       (s.upc.hs = .restoreShadow ∧ t.dsiCtl = s.hsSaved)))

/-! ## Whole runs -/

/-- The state is at the SET of byte `b`, the `tx_idx`-th of `bytes`, with the CORE about to run. -/
structure AtByte (s : State) (bytes : List Byte) (b : Byte) : Prop where
  rst : s.rst = false
  st : s.st = .exec
  free : CoreFree s
  sends : sendsAt s.cur.instr s = some bytes
  byte : bytes[s.upc.txIdx]? = some b
  set : s.upc.hs = .setSave

/-- R121, R122: LP_WRITE_BYTE(b), whatever the polls read as long as each wait ends ready: its trace, the shadow restored,
the registers it has written, and the position after it. The number of steps, those of the CORE, the PORT and the CONTROLLER
together, is the model's choice (log entry 4), and so is the value of `poll_n` where there is no bound (log entry 22). -/
def Obligations.AHandshakeCompletes : Prop :=
  ∀ (s : State) (bytes : List Byte) (b : Byte) (r1 r2 rd : List Word) (pa : List Bool), AtByte s bytes b →
    WaitEndsReady r1 → WaitEndsReady r2 →
    s.portAnswers = List.replicate (3 + (r1.length + r2.length)) true ++ pa → s.readDraws = r1 ++ r2 ++ rd →
    ∃ t, Runs (12 + 5 * (r1.length + r2.length)) s t ∧
      t = { s with
        hsSaved := s.dsiCtl
        pollN := r2.length - 1
        upc := if s.upc.txIdx + 1 < bytes.length then ⟨s.upc.line, s.upc.txIdx + 1, .setSave⟩
          else ⟨s.upc.line + 1, 0, .setSave⟩
        portAnswers := pa, readDraws := rd, ctrl := t.ctrl
        trace := s.trace ++ handshakeTrace s.dsiCtl r1 r2 b } ∧
      (∀ q, t.ctrl.get q = if q = .dsiCtl then s.dsiCtl
        else if q = .lpTx then 0x00000100#32 ||| b.setWidth 32 else s.ctrl.get q)

/-- R126, R128, R129, R25: every packet command, pseudo-instruction and emitted item, begun at its first line, sends its
bytes in order, restores the shadow, returns its value and ends without error (ERR = 0), whatever its polls read as long as
each wait ends ready. The number of steps is the model's choice (log entry 4), and so is that an emitted item runs alone (log entry
8). -/
def Obligations.APacketCompletes : Prop :=
  ∀ (i : Instr) (s : State) (bytes : List Byte) (polls : Polls) (rd : List Word) (pa : List Bool), Started i s →
    wireBytes i s.cur = some bytes → (Instr.checksLength i = true → s.cur.plen.toNat ≤ 255) →
    polls.length = bytes.length → PollsEndReady polls →
    s.portAnswers = List.replicate (packetAccesses polls) true ++ pa → s.readDraws = pollValues polls ++ rd →
    ∃ t, Runs (sendLineOf i + packetSteps polls + 1) s t ∧
      t.trace = s.trace ++ packetTrace s.dsiCtl polls bytes ∧ t.dsiCtl = s.dsiCtl ∧
      t.result = (wireResult i s.cur).getD s.result ∧ t.isDone = true ∧ t.st = .idle ∧ t.err = 0 ∧ CoreFree t ∧
      t.portAnswers = pa ∧ t.readDraws = rd ∧ t.timerWaits = s.timerWaits ∧ t.cur = s.cur ∧
      (∀ q, q ≠ .dsiCtl → q ≠ .lpTx → t.ctrl.get q = s.ctrl.get q) ∧ t.ctrl.get .dsiCtl = s.dsiCtl

/-- R131, R122: every run of a packet command, a pseudo-instruction or an emitted item (alone: log entry 8) from its acceptance to its
end, if it ends without error, has added to the trace exactly the handshakes of its n bytes in order, with s the shadow at
the start: n writes of LP_TX, 2 n writes of DSI_CTL, their values alternating between `s | LP_SEND_MASK` and `s`, and at
least 2 n reads at READY_OFF, at most 2 n N under the bound N, since each wait reads between 1 and N times. For SEND_SHORT
n is 5, for SEND_LONG it is 7 + L. -/
def Obligations.PacketTraceCounts : Prop :=
  ∀ (i : Instr) (s t : State) (bytes : List Byte), Started i s → wireBytes i s.cur = some bytes →
    CommandRun s t → t.st = .idle → t.err = 0 →
    ∃ (added : List Event) (polls : Polls), t.trace = s.trace ++ added ∧
      polls.length = bytes.length ∧ PollsEndReady polls ∧ added = packetTrace s.dsiCtl polls bytes ∧
      added.countP Event.isTx = bytes.length ∧
      added.filterMap Event.shadowValue =
        (List.replicate bytes.length [s.dsiCtl ||| Config.lpSendMask, s.dsiCtl]).flatten ∧
      2 * bytes.length ≤ added.countP Event.isRead ∧
      (∀ n, Config.hsTimeout = some n → added.countP Event.isRead ≤ 2 * n * bytes.length) ∧
      (∀ ty w0 w1, i = .sendShort ty w0 w1 → bytes.length = 5) ∧
      (∀ isDcs, i = .sendLong isDcs → bytes.length = 7 + s.cur.pl.length)

/-- R150, R166: BRING_UP with a legal lane count, begun at its first line, performs exactly the trace of R166 and ends
with `dsi_ctl` = LANE_ENC | 1, RESULT = 0, DONE = 1 and no error (ERR = 0), whatever its polls read as long as each wait ends
ready, however long the TIMER lets each delay go on, and whatever the shadow held before. The number of steps is the
model's choice (log entries 4 and 14), and the order of the eight writes of B10 in the trace is the spec's own decision D21, of which
R162 says 'No claim should rest on that order': this statement rests on it. -/
def Obligations.BringUpCompletes : Prop :=
  ∀ (s : State) (p1 p2 p3 p4 : Polls) (rd : List Word) (pa : List Bool) (tw waits : List Nat),
    Started .bringUp s →
    1 ≤ s.cur.cfg.numLanes.toNat → s.cur.cfg.numLanes.toNat ≤ 4 →
    p1.length = 5 → p2.length = 5 → p3.length = 5 → p4.length = 5 →
    PollsEndReady p1 → PollsEndReady p2 → PollsEndReady p3 → PollsEndReady p4 →
    s.portAnswers = List.replicate (18 + packetAccesses (p1 ++ p2 ++ p3 ++ p4)) true ++ pa →
    s.readDraws = pollValues (p1 ++ p2 ++ p3 ++ p4) ++ rd → waits.length = 7 →
    s.timerWaits = waits ++ tw →
    ∃ t, Runs (73 + packetSteps (p1 ++ p2 ++ p3 ++ p4) + waits.sum) s t ∧
      t.trace = s.trace ++ bringUpTrace s.cur.cfg p1 p2 p3 p4 ∧
      t.dsiCtl = Config.laneEnc s.cur.cfg.numLanes ||| 1 ∧ t.result = 0x0000 ∧ t.isDone = true ∧ t.st = .idle ∧
      t.err = 0 ∧ CoreFree t ∧ t.portAnswers = pa ∧ t.readDraws = rd ∧ t.timerWaits = tw ∧
      t.ctrl.get .timingCtl = 1 ∧ t.ctrl.get .dsiCtl = t.dsiCtl

/-- R122, R206: a wait that reads only not-ready values goes on, read after read, until the bound is reached, and raises
HandshakeTimeout exactly then: ERR = 2, with the shadow as it stands. Without a bound it never ends, and no
instruction ever raises HandshakeTimeout. That each read takes five steps is the model's choice (log entry 4), and so is the value
of `poll_n` where there is no bound (log entry 22). -/
def Obligations.AWaitPollsUntilItsBound : Prop :=
  (∀ (s : State) (bytes : List Byte) (b : Byte) (read : HsLine) (nots rd : List Word) (pa : List Bool),
    s.rst = false → s.st = .exec → CoreFree s → sendsAt s.cur.instr s = some bytes →
    bytes[s.upc.txIdx]? = some b → (read = .wait1Read ∨ read = .wait2Read) → s.upc.hs = read → s.pollN = 0 →
    (∀ v ∈ nots, v &&& Config.readyMask = 0) → nots ≠ [] →
    s.portAnswers = List.replicate nots.length true ++ pa → s.readDraws = nots ++ rd →
    let waiting := { s with
      pollN := nots.length, portAnswers := pa, readDraws := rd
      trace := s.trace ++ nots.map fun v => .read (some v) }
    let timedOut := { s with
      pollN := nots.length, portAnswers := pa, readDraws := rd, err := 2, isDone := true, st := .idle
      upc := ⟨s.upc.line, s.upc.txIdx, if read = .wait1Read then .wait1Bound else .wait2Bound⟩
      trace := s.trace ++ nots.map fun v => .read (some v) }
    match Config.hsTimeout with
    | none => Runs (5 * nots.length) s waiting
    | some n => (nots.length < n → Runs (5 * nots.length) s waiting) ∧
                (nots.length = n → Runs (5 * nots.length) s timedOut)) ∧
  (match Config.hsTimeout with
    | none => ∀ (i : Instr) (s t : State), Sys2Proof.Machine.exec i s = .next t → t.err = 2 → s.err = 2
    | some _ => True)

/-- R204, R203: what `dsi_ctl` holds after a BusError in each phase of a handshake begun with `dsi_ctl` = v, after any number of
not-ready reads of its waits: v with LP_SEND set, but v itself when the RESTORE write fails. The trace has the accesses
before the failing one as the handshake lists them, and then the failing one. -/
def Obligations.ShadowAfterAnAbortedHandshake : Prop :=
  ∀ (s : State) (bytes : List Byte) (b : Byte) (pa : List Bool) (w1 w2 rd : List Word) (phase : HsPhase) (oks : Nat),
    AtByte s bytes b → FailsIn phase w1 w2 oks → s.readDraws = w1 ++ w2 ++ rd →
    s.portAnswers = List.replicate oks true ++ false :: pa →
      ∃ k t, Runs k s t ∧ t.st = .idle ∧ t.isDone = true ∧ t.err = 3 ∧ t.hsSaved = s.dsiCtl ∧
        t.dsiCtl = (if phase = .restore then s.dsiCtl else s.dsiCtl ||| Config.lpSendMask) ∧
        t.result = s.result ∧ t.portAnswers = pa ∧
        t.trace = s.trace ++ (handshakeTrace s.dsiCtl w1 w2 b).take oks ++ [failedEvent (phaseAccess phase s.dsiCtl b)]
end

