-- ==== Sys2Proof/Laws/State.lean ====
section
/-! SUPPORT. One lemma per field for each shared operation on the state, and the laws of the CONTROLLER's registers, so that
no later proof unfolds a record update. -/

namespace Sys2Proof.Machine

/-! ## nextLine -/

@[simp] theorem nextLine_st (s : State) : (nextLine s).st = s.st := rfl
@[simp] theorem nextLine_dsiCtl (s : State) : (nextLine s).dsiCtl = s.dsiCtl := rfl
@[simp] theorem nextLine_hsSaved (s : State) : (nextLine s).hsSaved = s.hsSaved := rfl
@[simp] theorem nextLine_cur (s : State) : (nextLine s).cur = s.cur := rfl
@[simp] theorem nextLine_upc (s : State) : (nextLine s).upc = ⟨s.upc.line + 1, 0, .setSave⟩ := rfl
@[simp] theorem nextLine_pollN (s : State) : (nextLine s).pollN = s.pollN := rfl
@[simp] theorem nextLine_result (s : State) : (nextLine s).result = s.result := rfl
@[simp] theorem nextLine_err (s : State) : (nextLine s).err = s.err := rfl
@[simp] theorem nextLine_isDone (s : State) : (nextLine s).isDone = s.isDone := rfl
@[simp] theorem nextLine_rst (s : State) : (nextLine s).rst = s.rst := rfl
@[simp] theorem nextLine_cmdValid (s : State) : (nextLine s).cmdValid = s.cmdValid := rfl
@[simp] theorem nextLine_hostIn (s : State) : (nextLine s).hostIn = s.hostIn := rfl
@[simp] theorem nextLine_hostQueue (s : State) : (nextLine s).hostQueue = s.hostQueue := rfl
@[simp] theorem nextLine_port (s : State) : (nextLine s).port = s.port := rfl
@[simp] theorem nextLine_timer (s : State) : (nextLine s).timer = s.timer := rfl
@[simp] theorem nextLine_ctrl (s : State) : (nextLine s).ctrl = s.ctrl := rfl
@[simp] theorem nextLine_portAnswers (s : State) : (nextLine s).portAnswers = s.portAnswers := rfl
@[simp] theorem nextLine_readDraws (s : State) : (nextLine s).readDraws = s.readDraws := rfl
@[simp] theorem nextLine_timerWaits (s : State) : (nextLine s).timerWaits = s.timerWaits := rfl
@[simp] theorem nextLine_drawN (s : State) : (nextLine s).drawN = s.drawN := rfl
@[simp] theorem nextLine_trace (s : State) : (nextLine s).trace = s.trace := rfl

/-! ## gotoHs -/

@[simp] theorem gotoHs_st (p : HsLine) (s : State) : (gotoHs p s).st = s.st := rfl
@[simp] theorem gotoHs_dsiCtl (p : HsLine) (s : State) : (gotoHs p s).dsiCtl = s.dsiCtl := rfl
@[simp] theorem gotoHs_hsSaved (p : HsLine) (s : State) : (gotoHs p s).hsSaved = s.hsSaved := rfl
@[simp] theorem gotoHs_cur (p : HsLine) (s : State) : (gotoHs p s).cur = s.cur := rfl
@[simp] theorem gotoHs_upc (p : HsLine) (s : State) : (gotoHs p s).upc = ⟨s.upc.line, s.upc.txIdx, p⟩ := rfl
@[simp] theorem gotoHs_pollN (p : HsLine) (s : State) : (gotoHs p s).pollN = s.pollN := rfl
@[simp] theorem gotoHs_result (p : HsLine) (s : State) : (gotoHs p s).result = s.result := rfl
@[simp] theorem gotoHs_err (p : HsLine) (s : State) : (gotoHs p s).err = s.err := rfl
@[simp] theorem gotoHs_isDone (p : HsLine) (s : State) : (gotoHs p s).isDone = s.isDone := rfl
@[simp] theorem gotoHs_rst (p : HsLine) (s : State) : (gotoHs p s).rst = s.rst := rfl
@[simp] theorem gotoHs_cmdValid (p : HsLine) (s : State) : (gotoHs p s).cmdValid = s.cmdValid := rfl
@[simp] theorem gotoHs_hostIn (p : HsLine) (s : State) : (gotoHs p s).hostIn = s.hostIn := rfl
@[simp] theorem gotoHs_hostQueue (p : HsLine) (s : State) : (gotoHs p s).hostQueue = s.hostQueue := rfl
@[simp] theorem gotoHs_port (p : HsLine) (s : State) : (gotoHs p s).port = s.port := rfl
@[simp] theorem gotoHs_timer (p : HsLine) (s : State) : (gotoHs p s).timer = s.timer := rfl
@[simp] theorem gotoHs_ctrl (p : HsLine) (s : State) : (gotoHs p s).ctrl = s.ctrl := rfl
@[simp] theorem gotoHs_portAnswers (p : HsLine) (s : State) : (gotoHs p s).portAnswers = s.portAnswers := rfl
@[simp] theorem gotoHs_readDraws (p : HsLine) (s : State) : (gotoHs p s).readDraws = s.readDraws := rfl
@[simp] theorem gotoHs_timerWaits (p : HsLine) (s : State) : (gotoHs p s).timerWaits = s.timerWaits := rfl
@[simp] theorem gotoHs_drawN (p : HsLine) (s : State) : (gotoHs p s).drawN = s.drawN := rfl
@[simp] theorem gotoHs_trace (p : HsLine) (s : State) : (gotoHs p s).trace = s.trace := rfl

/-! ## issue -/

@[simp] theorem issue_st (a : Access) (s : State) : (issue a s).st = s.st := rfl
@[simp] theorem issue_dsiCtl (a : Access) (s : State) : (issue a s).dsiCtl = s.dsiCtl := rfl
@[simp] theorem issue_hsSaved (a : Access) (s : State) : (issue a s).hsSaved = s.hsSaved := rfl
@[simp] theorem issue_cur (a : Access) (s : State) : (issue a s).cur = s.cur := rfl
@[simp] theorem issue_upc (a : Access) (s : State) : (issue a s).upc = s.upc := rfl
@[simp] theorem issue_pollN (a : Access) (s : State) : (issue a s).pollN = s.pollN := rfl
@[simp] theorem issue_result (a : Access) (s : State) : (issue a s).result = s.result := rfl
@[simp] theorem issue_err (a : Access) (s : State) : (issue a s).err = s.err := rfl
@[simp] theorem issue_isDone (a : Access) (s : State) : (issue a s).isDone = s.isDone := rfl
@[simp] theorem issue_rst (a : Access) (s : State) : (issue a s).rst = s.rst := rfl
@[simp] theorem issue_cmdValid (a : Access) (s : State) : (issue a s).cmdValid = s.cmdValid := rfl
@[simp] theorem issue_hostIn (a : Access) (s : State) : (issue a s).hostIn = s.hostIn := rfl
@[simp] theorem issue_hostQueue (a : Access) (s : State) : (issue a s).hostQueue = s.hostQueue := rfl
@[simp] theorem issue_port (a : Access) (s : State) : (issue a s).port = .req a := rfl
@[simp] theorem issue_timer (a : Access) (s : State) : (issue a s).timer = s.timer := rfl
@[simp] theorem issue_ctrl (a : Access) (s : State) : (issue a s).ctrl = s.ctrl := rfl
@[simp] theorem issue_portAnswers (a : Access) (s : State) : (issue a s).portAnswers = s.portAnswers := rfl
@[simp] theorem issue_readDraws (a : Access) (s : State) : (issue a s).readDraws = s.readDraws := rfl
@[simp] theorem issue_timerWaits (a : Access) (s : State) : (issue a s).timerWaits = s.timerWaits := rfl
@[simp] theorem issue_drawN (a : Access) (s : State) : (issue a s).drawN = s.drawN := rfl
@[simp] theorem issue_trace (a : Access) (s : State) : (issue a s).trace = s.trace := rfl

/-! ## startTimer -/

@[simp] theorem startTimer_st (t : DelayTag) (s : State) : (startTimer t s).st = s.st := rfl
@[simp] theorem startTimer_dsiCtl (t : DelayTag) (s : State) : (startTimer t s).dsiCtl = s.dsiCtl := rfl
@[simp] theorem startTimer_hsSaved (t : DelayTag) (s : State) : (startTimer t s).hsSaved = s.hsSaved := rfl
@[simp] theorem startTimer_cur (t : DelayTag) (s : State) : (startTimer t s).cur = s.cur := rfl
@[simp] theorem startTimer_upc (t : DelayTag) (s : State) : (startTimer t s).upc = s.upc := rfl
@[simp] theorem startTimer_pollN (t : DelayTag) (s : State) : (startTimer t s).pollN = s.pollN := rfl
@[simp] theorem startTimer_result (t : DelayTag) (s : State) : (startTimer t s).result = s.result := rfl
@[simp] theorem startTimer_err (t : DelayTag) (s : State) : (startTimer t s).err = s.err := rfl
@[simp] theorem startTimer_isDone (t : DelayTag) (s : State) : (startTimer t s).isDone = s.isDone := rfl
@[simp] theorem startTimer_rst (t : DelayTag) (s : State) : (startTimer t s).rst = s.rst := rfl
@[simp] theorem startTimer_cmdValid (t : DelayTag) (s : State) : (startTimer t s).cmdValid = s.cmdValid := rfl
@[simp] theorem startTimer_hostIn (t : DelayTag) (s : State) : (startTimer t s).hostIn = s.hostIn := rfl
@[simp] theorem startTimer_hostQueue (t : DelayTag) (s : State) : (startTimer t s).hostQueue = s.hostQueue := rfl
@[simp] theorem startTimer_port (t : DelayTag) (s : State) : (startTimer t s).port = s.port := rfl
@[simp] theorem startTimer_timer (t : DelayTag) (s : State) : (startTimer t s).timer = some ⟨t, none⟩ := rfl
@[simp] theorem startTimer_ctrl (t : DelayTag) (s : State) : (startTimer t s).ctrl = s.ctrl := rfl
@[simp] theorem startTimer_portAnswers (t : DelayTag) (s : State) : (startTimer t s).portAnswers = s.portAnswers := rfl
@[simp] theorem startTimer_readDraws (t : DelayTag) (s : State) : (startTimer t s).readDraws = s.readDraws := rfl
@[simp] theorem startTimer_timerWaits (t : DelayTag) (s : State) : (startTimer t s).timerWaits = s.timerWaits := rfl
@[simp] theorem startTimer_drawN (t : DelayTag) (s : State) : (startTimer t s).drawN = s.drawN := rfl
@[simp] theorem startTimer_trace (t : DelayTag) (s : State) : (startTimer t s).trace = s.trace := rfl

/-! ## finish -/

@[simp] theorem finish_st (r : Option Half) (s : State) : (finish r s).st = .idle := rfl
@[simp] theorem finish_dsiCtl (r : Option Half) (s : State) : (finish r s).dsiCtl = s.dsiCtl := rfl
@[simp] theorem finish_hsSaved (r : Option Half) (s : State) : (finish r s).hsSaved = s.hsSaved := rfl
@[simp] theorem finish_cur (r : Option Half) (s : State) : (finish r s).cur = s.cur := rfl
@[simp] theorem finish_upc (r : Option Half) (s : State) : (finish r s).upc = s.upc := rfl
@[simp] theorem finish_pollN (r : Option Half) (s : State) : (finish r s).pollN = s.pollN := rfl
@[simp] theorem finish_result (r : Option Half) (s : State) : (finish r s).result = r.getD s.result := rfl
@[simp] theorem finish_err (r : Option Half) (s : State) : (finish r s).err = s.err := rfl
@[simp] theorem finish_isDone (r : Option Half) (s : State) : (finish r s).isDone = true := rfl
@[simp] theorem finish_rst (r : Option Half) (s : State) : (finish r s).rst = s.rst := rfl
@[simp] theorem finish_cmdValid (r : Option Half) (s : State) : (finish r s).cmdValid = s.cmdValid := rfl
@[simp] theorem finish_hostIn (r : Option Half) (s : State) : (finish r s).hostIn = s.hostIn := rfl
@[simp] theorem finish_hostQueue (r : Option Half) (s : State) : (finish r s).hostQueue = s.hostQueue := rfl
@[simp] theorem finish_port (r : Option Half) (s : State) : (finish r s).port = s.port := rfl
@[simp] theorem finish_timer (r : Option Half) (s : State) : (finish r s).timer = s.timer := rfl
@[simp] theorem finish_ctrl (r : Option Half) (s : State) : (finish r s).ctrl = s.ctrl := rfl
@[simp] theorem finish_portAnswers (r : Option Half) (s : State) : (finish r s).portAnswers = s.portAnswers := rfl
@[simp] theorem finish_readDraws (r : Option Half) (s : State) : (finish r s).readDraws = s.readDraws := rfl
@[simp] theorem finish_timerWaits (r : Option Half) (s : State) : (finish r s).timerWaits = s.timerWaits := rfl
@[simp] theorem finish_drawN (r : Option Half) (s : State) : (finish r s).drawN = s.drawN := rfl
@[simp] theorem finish_trace (r : Option Half) (s : State) : (finish r s).trace = s.trace := rfl

/-! ## abort -/

@[simp] theorem abort_st (k : ErrKind) (s : State) : (abort k s).st = .idle := rfl
@[simp] theorem abort_dsiCtl (k : ErrKind) (s : State) : (abort k s).dsiCtl = s.dsiCtl := rfl
@[simp] theorem abort_hsSaved (k : ErrKind) (s : State) : (abort k s).hsSaved = s.hsSaved := rfl
@[simp] theorem abort_cur (k : ErrKind) (s : State) : (abort k s).cur = s.cur := rfl
@[simp] theorem abort_upc (k : ErrKind) (s : State) : (abort k s).upc = s.upc := rfl
@[simp] theorem abort_pollN (k : ErrKind) (s : State) : (abort k s).pollN = s.pollN := rfl
@[simp] theorem abort_result (k : ErrKind) (s : State) : (abort k s).result = s.result := rfl
@[simp] theorem abort_err (k : ErrKind) (s : State) : (abort k s).err = errCode k := rfl
@[simp] theorem abort_isDone (k : ErrKind) (s : State) : (abort k s).isDone = true := rfl
@[simp] theorem abort_rst (k : ErrKind) (s : State) : (abort k s).rst = s.rst := rfl
@[simp] theorem abort_cmdValid (k : ErrKind) (s : State) : (abort k s).cmdValid = s.cmdValid := rfl
@[simp] theorem abort_hostIn (k : ErrKind) (s : State) : (abort k s).hostIn = s.hostIn := rfl
@[simp] theorem abort_hostQueue (k : ErrKind) (s : State) : (abort k s).hostQueue = s.hostQueue := rfl
@[simp] theorem abort_port (k : ErrKind) (s : State) : (abort k s).port = .idle := rfl
@[simp] theorem abort_timer (k : ErrKind) (s : State) : (abort k s).timer = s.timer := rfl
@[simp] theorem abort_ctrl (k : ErrKind) (s : State) : (abort k s).ctrl = s.ctrl := rfl
@[simp] theorem abort_portAnswers (k : ErrKind) (s : State) : (abort k s).portAnswers = s.portAnswers := rfl
@[simp] theorem abort_readDraws (k : ErrKind) (s : State) : (abort k s).readDraws = s.readDraws := rfl
@[simp] theorem abort_timerWaits (k : ErrKind) (s : State) : (abort k s).timerWaits = s.timerWaits := rfl
@[simp] theorem abort_drawN (k : ErrKind) (s : State) : (abort k s).drawN = s.drawN := rfl
@[simp] theorem abort_trace (k : ErrKind) (s : State) : (abort k s).trace = s.trace := rfl

/-! ## latch -/

@[simp] theorem latch_st (i : Instr) (s : State) : (latch i s).st = .exec := rfl
@[simp] theorem latch_dsiCtl (i : Instr) (s : State) : (latch i s).dsiCtl = s.dsiCtl := rfl
@[simp] theorem latch_hsSaved (i : Instr) (s : State) : (latch i s).hsSaved = s.hsSaved := rfl
@[simp] theorem latch_cur (i : Instr) (s : State) : (latch i s).cur = ⟨i, s.hostIn.plen, latchedPayload s.hostIn.plen s.hostIn.payload, s.hostIn.cfg, s.hostIn.crcSendReal⟩ := rfl
@[simp] theorem latch_upc (i : Instr) (s : State) : (latch i s).upc = Upc.first := rfl
@[simp] theorem latch_pollN (i : Instr) (s : State) : (latch i s).pollN = s.pollN := rfl
@[simp] theorem latch_result (i : Instr) (s : State) : (latch i s).result = s.result := rfl
@[simp] theorem latch_err (i : Instr) (s : State) : (latch i s).err = 0 := rfl
@[simp] theorem latch_isDone (i : Instr) (s : State) : (latch i s).isDone = false := rfl
@[simp] theorem latch_rst (i : Instr) (s : State) : (latch i s).rst = s.rst := rfl
@[simp] theorem latch_cmdValid (i : Instr) (s : State) : (latch i s).cmdValid = s.cmdValid := rfl
@[simp] theorem latch_hostIn (i : Instr) (s : State) : (latch i s).hostIn = s.hostIn := rfl
@[simp] theorem latch_hostQueue (i : Instr) (s : State) : (latch i s).hostQueue = s.hostQueue := rfl
@[simp] theorem latch_port (i : Instr) (s : State) : (latch i s).port = s.port := rfl
@[simp] theorem latch_timer (i : Instr) (s : State) : (latch i s).timer = s.timer := rfl
@[simp] theorem latch_ctrl (i : Instr) (s : State) : (latch i s).ctrl = s.ctrl := rfl
@[simp] theorem latch_portAnswers (i : Instr) (s : State) : (latch i s).portAnswers = s.portAnswers := rfl
@[simp] theorem latch_readDraws (i : Instr) (s : State) : (latch i s).readDraws = s.readDraws := rfl
@[simp] theorem latch_timerWaits (i : Instr) (s : State) : (latch i s).timerWaits = s.timerWaits := rfl
@[simp] theorem latch_drawN (i : Instr) (s : State) : (latch i s).drawN = s.drawN := rfl
@[simp] theorem latch_trace (i : Instr) (s : State) : (latch i s).trace = s.trace := rfl

/-! ## loseTarget -/

@[simp] theorem loseTarget_st (a : Access) (s : State) : (loseTarget a s).st = s.st := rfl
@[simp] theorem loseTarget_dsiCtl (a : Access) (s : State) : (loseTarget a s).dsiCtl = s.dsiCtl := rfl
@[simp] theorem loseTarget_hsSaved (a : Access) (s : State) : (loseTarget a s).hsSaved = s.hsSaved := rfl
@[simp] theorem loseTarget_cur (a : Access) (s : State) : (loseTarget a s).cur = s.cur := rfl
@[simp] theorem loseTarget_upc (a : Access) (s : State) : (loseTarget a s).upc = s.upc := rfl
@[simp] theorem loseTarget_pollN (a : Access) (s : State) : (loseTarget a s).pollN = s.pollN := rfl
@[simp] theorem loseTarget_result (a : Access) (s : State) : (loseTarget a s).result = s.result := rfl
@[simp] theorem loseTarget_err (a : Access) (s : State) : (loseTarget a s).err = s.err := rfl
@[simp] theorem loseTarget_isDone (a : Access) (s : State) : (loseTarget a s).isDone = s.isDone := rfl
@[simp] theorem loseTarget_rst (a : Access) (s : State) : (loseTarget a s).rst = s.rst := rfl
@[simp] theorem loseTarget_cmdValid (a : Access) (s : State) : (loseTarget a s).cmdValid = s.cmdValid := rfl
@[simp] theorem loseTarget_hostIn (a : Access) (s : State) : (loseTarget a s).hostIn = s.hostIn := rfl
@[simp] theorem loseTarget_hostQueue (a : Access) (s : State) : (loseTarget a s).hostQueue = s.hostQueue := rfl
@[simp] theorem loseTarget_port (a : Access) (s : State) : (loseTarget a s).port = s.port := rfl
@[simp] theorem loseTarget_timer (a : Access) (s : State) : (loseTarget a s).timer = s.timer := rfl
@[simp] theorem loseTarget_ctrl (a : Access) (s : State) : (loseTarget a s).ctrl = s.ctrl.clobber a (Config.unknownReg s.drawN) := rfl
@[simp] theorem loseTarget_portAnswers (a : Access) (s : State) : (loseTarget a s).portAnswers = s.portAnswers := rfl
@[simp] theorem loseTarget_readDraws (a : Access) (s : State) : (loseTarget a s).readDraws = s.readDraws := rfl
@[simp] theorem loseTarget_timerWaits (a : Access) (s : State) : (loseTarget a s).timerWaits = s.timerWaits := rfl
@[simp] theorem loseTarget_drawN (a : Access) (s : State) : (loseTarget a s).drawN = s.drawN + 1 := rfl
@[simp] theorem loseTarget_trace (a : Access) (s : State) : (loseTarget a s).trace = s.trace := rfl

/-! ## wr -/

@[simp] theorem wr_st (r : Reg) (v : Word) (s : State) : (wr r v s).st = s.st := rfl
@[simp] theorem wr_dsiCtl (r : Reg) (v : Word) (s : State) : (wr r v s).dsiCtl = s.dsiCtl := rfl
@[simp] theorem wr_hsSaved (r : Reg) (v : Word) (s : State) : (wr r v s).hsSaved = s.hsSaved := rfl
@[simp] theorem wr_cur (r : Reg) (v : Word) (s : State) : (wr r v s).cur = s.cur := rfl
@[simp] theorem wr_upc (r : Reg) (v : Word) (s : State) : (wr r v s).upc = s.upc := rfl
@[simp] theorem wr_pollN (r : Reg) (v : Word) (s : State) : (wr r v s).pollN = s.pollN := rfl
@[simp] theorem wr_result (r : Reg) (v : Word) (s : State) : (wr r v s).result = s.result := rfl
@[simp] theorem wr_err (r : Reg) (v : Word) (s : State) : (wr r v s).err = s.err := rfl
@[simp] theorem wr_isDone (r : Reg) (v : Word) (s : State) : (wr r v s).isDone = s.isDone := rfl
@[simp] theorem wr_rst (r : Reg) (v : Word) (s : State) : (wr r v s).rst = s.rst := rfl
@[simp] theorem wr_cmdValid (r : Reg) (v : Word) (s : State) : (wr r v s).cmdValid = s.cmdValid := rfl
@[simp] theorem wr_hostIn (r : Reg) (v : Word) (s : State) : (wr r v s).hostIn = s.hostIn := rfl
@[simp] theorem wr_hostQueue (r : Reg) (v : Word) (s : State) : (wr r v s).hostQueue = s.hostQueue := rfl
@[simp] theorem wr_port (r : Reg) (v : Word) (s : State) : (wr r v s).port = .req (.write r v) := rfl
@[simp] theorem wr_timer (r : Reg) (v : Word) (s : State) : (wr r v s).timer = s.timer := rfl
@[simp] theorem wr_ctrl (r : Reg) (v : Word) (s : State) : (wr r v s).ctrl = s.ctrl := rfl
@[simp] theorem wr_portAnswers (r : Reg) (v : Word) (s : State) : (wr r v s).portAnswers = s.portAnswers := rfl
@[simp] theorem wr_readDraws (r : Reg) (v : Word) (s : State) : (wr r v s).readDraws = s.readDraws := rfl
@[simp] theorem wr_timerWaits (r : Reg) (v : Word) (s : State) : (wr r v s).timerWaits = s.timerWaits := rfl
@[simp] theorem wr_drawN (r : Reg) (v : Word) (s : State) : (wr r v s).drawN = s.drawN := rfl
@[simp] theorem wr_trace (r : Reg) (v : Word) (s : State) : (wr r v s).trace = s.trace := rfl

/-! ## wrShadow -/

@[simp] theorem wrShadow_st (s : State) : (wrShadow s).st = s.st := rfl
@[simp] theorem wrShadow_dsiCtl (s : State) : (wrShadow s).dsiCtl = s.dsiCtl := rfl
@[simp] theorem wrShadow_hsSaved (s : State) : (wrShadow s).hsSaved = s.hsSaved := rfl
@[simp] theorem wrShadow_cur (s : State) : (wrShadow s).cur = s.cur := rfl
@[simp] theorem wrShadow_upc (s : State) : (wrShadow s).upc = s.upc := rfl
@[simp] theorem wrShadow_pollN (s : State) : (wrShadow s).pollN = s.pollN := rfl
@[simp] theorem wrShadow_result (s : State) : (wrShadow s).result = s.result := rfl
@[simp] theorem wrShadow_err (s : State) : (wrShadow s).err = s.err := rfl
@[simp] theorem wrShadow_isDone (s : State) : (wrShadow s).isDone = s.isDone := rfl
@[simp] theorem wrShadow_rst (s : State) : (wrShadow s).rst = s.rst := rfl
@[simp] theorem wrShadow_cmdValid (s : State) : (wrShadow s).cmdValid = s.cmdValid := rfl
@[simp] theorem wrShadow_hostIn (s : State) : (wrShadow s).hostIn = s.hostIn := rfl
@[simp] theorem wrShadow_hostQueue (s : State) : (wrShadow s).hostQueue = s.hostQueue := rfl
@[simp] theorem wrShadow_port (s : State) : (wrShadow s).port = .req (.write .dsiCtl s.dsiCtl) := rfl
@[simp] theorem wrShadow_timer (s : State) : (wrShadow s).timer = s.timer := rfl
@[simp] theorem wrShadow_ctrl (s : State) : (wrShadow s).ctrl = s.ctrl := rfl
@[simp] theorem wrShadow_portAnswers (s : State) : (wrShadow s).portAnswers = s.portAnswers := rfl
@[simp] theorem wrShadow_readDraws (s : State) : (wrShadow s).readDraws = s.readDraws := rfl
@[simp] theorem wrShadow_timerWaits (s : State) : (wrShadow s).timerWaits = s.timerWaits := rfl
@[simp] theorem wrShadow_drawN (s : State) : (wrShadow s).drawN = s.drawN := rfl
@[simp] theorem wrShadow_trace (s : State) : (wrShadow s).trace = s.trace := rfl

/-! ## wait -/

@[simp] theorem wait_st (t : DelayTag) (s : State) : (wait t s).st = s.st := rfl
@[simp] theorem wait_dsiCtl (t : DelayTag) (s : State) : (wait t s).dsiCtl = s.dsiCtl := rfl
@[simp] theorem wait_hsSaved (t : DelayTag) (s : State) : (wait t s).hsSaved = s.hsSaved := rfl
@[simp] theorem wait_cur (t : DelayTag) (s : State) : (wait t s).cur = s.cur := rfl
@[simp] theorem wait_upc (t : DelayTag) (s : State) : (wait t s).upc = s.upc := rfl
@[simp] theorem wait_pollN (t : DelayTag) (s : State) : (wait t s).pollN = s.pollN := rfl
@[simp] theorem wait_result (t : DelayTag) (s : State) : (wait t s).result = s.result := rfl
@[simp] theorem wait_err (t : DelayTag) (s : State) : (wait t s).err = s.err := rfl
@[simp] theorem wait_isDone (t : DelayTag) (s : State) : (wait t s).isDone = s.isDone := rfl
@[simp] theorem wait_rst (t : DelayTag) (s : State) : (wait t s).rst = s.rst := rfl
@[simp] theorem wait_cmdValid (t : DelayTag) (s : State) : (wait t s).cmdValid = s.cmdValid := rfl
@[simp] theorem wait_hostIn (t : DelayTag) (s : State) : (wait t s).hostIn = s.hostIn := rfl
@[simp] theorem wait_hostQueue (t : DelayTag) (s : State) : (wait t s).hostQueue = s.hostQueue := rfl
@[simp] theorem wait_port (t : DelayTag) (s : State) : (wait t s).port = s.port := rfl
@[simp] theorem wait_timer (t : DelayTag) (s : State) : (wait t s).timer = some ⟨t, none⟩ := rfl
@[simp] theorem wait_ctrl (t : DelayTag) (s : State) : (wait t s).ctrl = s.ctrl := rfl
@[simp] theorem wait_portAnswers (t : DelayTag) (s : State) : (wait t s).portAnswers = s.portAnswers := rfl
@[simp] theorem wait_readDraws (t : DelayTag) (s : State) : (wait t s).readDraws = s.readDraws := rfl
@[simp] theorem wait_timerWaits (t : DelayTag) (s : State) : (wait t s).timerWaits = s.timerWaits := rfl
@[simp] theorem wait_drawN (t : DelayTag) (s : State) : (wait t s).drawN = s.drawN := rfl
@[simp] theorem wait_trace (t : DelayTag) (s : State) : (wait t s).trace = s.trace := rfl

/-! ## The CONTROLLER's registers -/

@[simp] theorem CtrlRegs.get_ofFn (f : Reg → Word) (r : Reg) : (CtrlRegs.ofFn f).get r = f r := by
  cases r <;> rfl

/-- Two register files with equal registers are equal. -/
theorem CtrlRegs.ext_get {c d : CtrlRegs} (h : ∀ r, c.get r = d.get r) : c = d := by
  obtain ⟨⟩ := c
  obtain ⟨⟩ := d
  simp only [CtrlRegs.mk.injEq]
  exact ⟨h .dsiCtl, h .lpTx, h .dsiLaneCtl, h .dsiTickdiv, h .dsiGpio, h .hFrontPorch, h .hBackPorch, h .hActive,
    h .hTotal, h .vBackPorch, h .vFrontPorch, h .vActive, h .vTotal, h .timingCtl⟩

/-- A register read after a write of the same register, and of another. -/
@[simp] theorem CtrlRegs.get_set (c : CtrlRegs) (r q : Reg) (v : Word) :
    (c.set r v).get q = if q = r then v else c.get q := by
  simp [CtrlRegs.set]

/-- A write leaves every other register alone. -/
theorem CtrlRegs.get_set_ne (c : CtrlRegs) {r q : Reg} (v : Word) (h : q ≠ r) : (c.set r v).get q = c.get q := by
  simp [h]

/-- What a failed or interrupted write leaves: only its target is unknown. -/
@[simp] theorem CtrlRegs.get_clobber_write (c : CtrlRegs) (r q : Reg) (v u : Word) :
    (c.clobber (.write r v) u).get q = if q = r then u else c.get q := by
  simp [CtrlRegs.clobber]

/-- What a failed or interrupted read leaves: only a register that lies at `READY_OFF` is unknown. -/
@[simp] theorem CtrlRegs.get_clobber_read (c : CtrlRegs) (q : Reg) (u : Word) :
    (c.clobber .readReady u).get q = if Config.off q = Config.readyOff then u else c.get q := by
  simp [CtrlRegs.clobber]

end Sys2Proof.Machine
end

