-- ==== Sys2Proof/Laws/Program.lean ====
section
/-! SUPPORT. What a CORE step can do, said once: every meaning runs its program's current line, waits, or raises BusError;
and what each kind of line can do. -/

namespace Sys2Proof.Machine

/-- Every meaning runs its program. -/
theorem exec_eq_runProgram (i : Instr) (s : State) : exec i s = runProgram (programOf i s.cur) s := by
  cases i <;> rfl

/-- While its access or its wait is not answered the CORE does nothing (R63, R239). -/
theorem runProgram_of_waits {prog : List ProgLine} {s : State} (h : coreWaits s = true) :
    runProgram prog s = .next s := by
  simp [runProgram, h]

/-- An `err` answer makes the next step raise BusError (R205). -/
theorem runProgram_of_failed {prog : List ProgLine} {s : State} {a : Access} (hp : s.port = .failed a)
    (ht : s.timer = none) : runProgram prog s = .next (abort .busError s) := by
  simp [runProgram, coreWaits, hp, ht]

/-- With no access or wait outstanding the CORE runs the line `upc` names (R30). -/
theorem runProgram_of_free {prog : List ProgLine} {s : State} {l : ProgLine} (h : CoreFree s)
    (hl : prog[s.upc.line]? = some l) : runProgram prog s = runLine l.op s := by
  simp [runProgram, coreWaits, h.1, h.2, hl]

/-- With a ready value at hand the CORE runs the line `upc` names (R30, R122). -/
theorem runProgram_of_got {prog : List ProgLine} {s : State} {l : ProgLine} {v : Word} (hp : s.port = .got v)
    (ht : s.timer = none) (hl : prog[s.upc.line]? = some l) : runProgram prog s = runLine l.op s := by
  simp [runProgram, coreWaits, hp, ht, hl]

/-- What a CORE step that answers a next state has done. -/
theorem runProgram_next_cases {prog : List ProgLine} {s t : State} (h : runProgram prog s = .next t) :
    (coreWaits s = true ∧ t = s) ∨
    (coreWaits s = false ∧ (∃ a, s.port = .failed a) ∧ t = abort .busError s) ∨
    (coreWaits s = false ∧ (∀ a, s.port ≠ .failed a) ∧
      ∃ l, prog[s.upc.line]? = some l ∧ runLine l.op s = .next t) := by
  unfold runProgram at h
  split at h
  · next hw => exact .inl ⟨hw, by simpa using h.symm⟩
  · next hw =>
    have hw : coreWaits s = false := by simpa using hw
    cases hp : s.port with
    | failed a => rw [hp] at h; exact .inr (.inl ⟨hw, ⟨a, rfl⟩, by simpa using h.symm⟩)
    | idle | req a | atCtrl a | got v =>
      rw [hp] at h
      refine .inr (.inr ⟨hw, by simp, ?_⟩)
      cases hl : prog[s.upc.line]? with
      | none => simp [hl] at h
      | some l => simp only [hl] at h; exact ⟨l, rfl, h⟩

/-- When the CORE does not wait, no wait runs and no access is under way. -/
theorem coreWaits_eq_false {s : State} :
    coreWaits s = false ↔ s.timer = none ∧ (∀ a, s.port ≠ .req a) ∧ (∀ a, s.port ≠ .atCtrl a) := by
  unfold coreWaits
  cases s.port <;> simp

/-- What the ready test can do (R122). -/
theorem pollTest_next_cases {ready bound : HsLine} {s t : State} (h : pollTest ready bound s = .next t) :
    ∃ v, s.port = .got v ∧
      ((isReady v = true ∧ t = gotoHs ready { s with port := .idle }) ∨
       (isReady v = false ∧ t = gotoHs bound { s with port := .idle, pollN := s.pollN + 1 })) := by
  unfold pollTest at h
  cases hp : s.port with
  | got v =>
    rw [hp] at h
    refine ⟨v, rfl, ?_⟩
    cases hr : isReady v <;> simp [hr] at h <;> simp [h]
  | idle | req a | atCtrl a | failed a => rw [hp] at h; cases h

/-- What the bound of a wait can do (R122). -/
theorem pollBound_cases (read : HsLine) (s : State) :
    (pollBoundReached s.pollN = true ∧ pollBound read s = abort .handshakeTimeout s) ∨
    (pollBoundReached s.pollN = false ∧ pollBound read s = gotoHs read s) := by
  unfold pollBound
  cases pollBoundReached s.pollN <;> simp

/-- After a byte: the next byte's SET, or the next line of the program (R126). -/
theorem nextByte_cases (n : Nat) (s : State) :
    (s.upc.txIdx + 1 < n ∧ nextByte n s = { s with upc := ⟨s.upc.line, s.upc.txIdx + 1, .setSave⟩ }) ∨
    (n ≤ s.upc.txIdx + 1 ∧ nextByte n s = nextLine s) := by
  unfold nextByte
  split
  · next h => exact .inl ⟨h, rfl⟩
  · next h => exact .inr ⟨by omega, rfl⟩

/-- A line that sends bytes runs the handshake of the byte `upc` names (R126). -/
theorem sendLine_next {bytes : List Byte} {s t : State} (h : sendLine bytes s = .next t) :
    ∃ b, bytes[s.upc.txIdx]? = some b ∧ hsLine b bytes.length s = .next t := by
  unfold sendLine at h
  cases hb : bytes[s.upc.txIdx]? with
  | none => rw [hb] at h; cases h
  | some b => rw [hb] at h; exact ⟨b, rfl, h⟩

/-- One line of the handshake that answers a next state, case by case (R121, R122). -/
theorem hsLine_next_cases {b : Byte} {n : Nat} {s t : State} (h : hsLine b n s = .next t) :
    (s.upc.hs = .setSave ∧ t = gotoHs .setShadow { s with hsSaved := s.dsiCtl }) ∨
    (s.upc.hs = .setShadow ∧ t = gotoHs .setWrite { s with dsiCtl := s.dsiCtl ||| Config.lpSendMask }) ∨
    (s.upc.hs = .setWrite ∧ t = gotoHs .wait1Clear (issue (.write .dsiCtl s.dsiCtl) s)) ∨
    (s.upc.hs = .wait1Clear ∧ t = gotoHs .wait1Read { s with pollN := 0 }) ∨
    (s.upc.hs = .wait1Read ∧ t = gotoHs .wait1Test (issue .readReady s)) ∨
    (s.upc.hs = .wait1Test ∧ ∃ v, s.port = .got v ∧
      ((isReady v = true ∧ t = gotoHs .txWrite { s with port := .idle }) ∨
       (isReady v = false ∧ t = gotoHs .wait1Bound { s with port := .idle, pollN := s.pollN + 1 }))) ∨
    (s.upc.hs = .wait1Bound ∧ pollBoundReached s.pollN = true ∧ t = abort .handshakeTimeout s) ∨
    (s.upc.hs = .wait1Bound ∧ pollBoundReached s.pollN = false ∧ t = gotoHs .wait1Read s) ∨
    (s.upc.hs = .txWrite ∧ t = gotoHs .wait2Clear (issue (.write .lpTx (txWord b)) s)) ∨
    (s.upc.hs = .wait2Clear ∧ t = gotoHs .wait2Read { s with pollN := 0 }) ∨
    (s.upc.hs = .wait2Read ∧ t = gotoHs .wait2Test (issue .readReady s)) ∨
    (s.upc.hs = .wait2Test ∧ ∃ v, s.port = .got v ∧
      ((isReady v = true ∧ t = gotoHs .restoreShadow { s with port := .idle }) ∨
       (isReady v = false ∧ t = gotoHs .wait2Bound { s with port := .idle, pollN := s.pollN + 1 }))) ∨
    (s.upc.hs = .wait2Bound ∧ pollBoundReached s.pollN = true ∧ t = abort .handshakeTimeout s) ∨
    (s.upc.hs = .wait2Bound ∧ pollBoundReached s.pollN = false ∧ t = gotoHs .wait2Read s) ∨
    (s.upc.hs = .restoreShadow ∧ t = gotoHs .restoreWrite { s with dsiCtl := s.hsSaved }) ∨
    (s.upc.hs = .restoreWrite ∧ t = nextByte n (issue (.write .dsiCtl s.dsiCtl) s)) := by
  unfold hsLine at h
  cases hh : s.upc.hs <;> simp only [hh] at h
  case wait1Test | wait2Test => simpa using pollTest_next_cases h
  case wait1Bound =>
    have := pollBound_cases .wait1Read s
    rw [show pollBound .wait1Read s = t by simpa using h] at this
    simpa using this
  case wait2Bound =>
    have := pollBound_cases .wait2Read s
    rw [show pollBound .wait2Read s = t by simpa using h] at this
    simpa using this
  all_goals simpa using h.symm

/-! ## Where the programs send their bytes -/

/-- The header of R125 is its three bytes side by side. -/
theorem header_eq_append (t w0 w1 : Byte) : header t w0 w1 = w1 ++ w0 ++ t := by
  unfold header
  apply BitVec.eq_of_getLsbD_eq
  intro i hi
  rw [BitVec.getLsbD_append, BitVec.getLsbD_append]
  simp only [BitVec.getLsbD_or, BitVec.getLsbD_shiftLeft, BitVec.getLsbD_setWidth]
  by_cases h8 : i < 8
  · simp [h8, hi, show i < 16 by omega]
  · by_cases h16 : i < 16
    · simp [h8, h16, hi, BitVec.getLsbD_of_ge t i (by omega), show i - 8 < 8 by omega, show i - 8 < 24 by omega]
    · simp [h8, h16, hi, BitVec.getLsbD_of_ge t i (by omega), BitVec.getLsbD_of_ge w0 (i-8) (by omega),
        show ¬ (i - 8 < 8) by omega, show i - 16 < 24 by omega, show i - 8 - 8 = i - 16 by omega]

set_option maxRecDepth 4000 in
/-- The line at which an instruction sends its bytes, in its program (R126, R128, R129). -/
theorem programOf_sendLine {i : Instr} {c : Cur} {bytes : List Byte} (h : wireBytes i c = some bytes) :
    (programOf i c)[sendLineOf i]? = some ⟨.main, .send bytes⟩ := by
  have hlong (d : Bool) (p : List Byte) (k : Half) : longPacketBytes d p k = wireBytes.longWireBytes d p k := by
    have : rev8 (0#8) = 0 := by decide
    cases d <;> simp [longPacketBytes, wireBytes.longWireBytes, headerBytes, Config.lpPreamble, header_eq_append, eccByte,
      longPacketType, lengthLow, loByte, hiByte, this] <;> decide
  cases i <;> simp only [wireBytes, reduceCtorEq, Option.some.injEq] at h <;> subst h <;>
    simp only [programOf, sendLineOf, Instr.checksLength, Bool.false_eq_true, if_false, if_true, sendShortProgram, sendLongProgram, emitProgram,
      List.getElem?_cons_zero, List.getElem?_cons_succ, Option.some.injEq, ProgLine.mk.injEq, Line.send.injEq, true_and, hlong, transmittedChecksum]
  case sendShort | shortPacket => simp [shortPacketBytes, headerBytes, Config.lpPreamble, header_eq_append, eccByte]
  all_goals decide

/-- The line after the packet ends the command (R32). -/
theorem programOf_afterSend {i : Instr} {c : Cur} {bytes : List Byte} (h : wireBytes i c = some bytes) :
    (programOf i c)[sendLineOf i + 1]? = some ⟨.main, .complete (wireResult i c)⟩ := by
  cases i <;> simp only [wireBytes, reduceCtorEq] at h <;>
    simp only [programOf, sendLineOf, Instr.checksLength, Bool.false_eq_true, if_false, if_true, sendShortProgram, sendLongProgram, emitProgram,
      List.getElem?_cons_zero, List.getElem?_cons_succ, Option.some.injEq, ProgLine.mk.injEq, Line.complete.injEq, true_and, wireResult, header_eq_append]
  all_goals decide

set_option maxRecDepth 4000 in
/-- The packets of BRING_UP in its program (R160, R161). -/
theorem bringUp_packetLine {cfg : PanelConfig} {n : Nat} {bytes : List Byte} (h : bringUpPacket n = some bytes) :
    ∃ m, (bringUpProgram cfg)[n]? = some ⟨m, .send bytes⟩ := by
  have p1 : shortPacketBytes 0x05 0x00 0x00 = [0xE1, 0xA0, 0x00, 0x00, 0x50] := by decide
  have p2 : shortPacketBytes 0x15 0x11 0x00 = [0xE1, 0xA8, 0x88, 0x00, 0xA4] := by decide
  have p3 : shortPacketBytes 0x15 0x29 0x00 = [0xE1, 0xA8, 0x94, 0x00, 0xF0] := by decide
  have p4 : shortPacketBytes 0x15 0x38 0x00 = [0xE1, 0xA8, 0x1C, 0x00, 0xCC] := by decide
  unfold bringUpPacket at h
  split at h <;> simp only [reduceCtorEq, Option.some.injEq] at h
  all_goals subst h; simp only [bringUpProgram, bringUpSetup, bringUpPower, bringUpPackets, bringUpTiming, List.cons_append, List.nil_append, 
      List.getElem?_cons_zero, List.getElem?_cons_succ,  Option.some.injEq, ProgLine.mk.injEq, Line.send.injEq]
  all_goals first | exact ⟨.b8, rfl, p1⟩ | exact ⟨.b9, rfl, p2⟩ | exact ⟨.b9, rfl, p3⟩ | exact ⟨.b9, rfl, p4⟩

end Sys2Proof.Machine
end

