-- ==== Sys2Proof/Laws/Step.lean ====
section
/-! SUPPORT. Whose step is next and what it does, said once; runs of several steps; and the two or three steps that an
access or a wait takes from its issue to its completion. -/

namespace Sys2Proof.Machine

/-! ## Single steps -/

theorem step_of_rst {s : State} (h : s.rst = true) : step s = .next (applyReset s) := by
  simp [step, turn, h]

theorem step_of_req {s : State} {a : Access} (hr : s.rst = false) (hp : s.port = .req a) :
    step s = .next (portStep s) := by
  simp [step, turn, hr, hp]

theorem step_of_atCtrl {s : State} {a : Access} (hr : s.rst = false) (hp : s.port = .atCtrl a) :
    step s = .next (controllerStep s) := by
  simp [step, turn, hr, hp]

theorem step_of_timer {s : State} {w : Wait} (hr : s.rst = false) (hp : s.port = .idle) (ht : s.timer = some w) :
    step s = .next (timerStep s) := by
  simp [step, turn, hr, hp, ht]

theorem step_of_core {s : State} (hr : s.rst = false) (hf : CoreFree s) (hs : s.st = .exec) :
    step s = exec s.cur.instr s := by
  simp [step, turn, hr, hf.1, hf.2, hs]

theorem step_of_got {s : State} {v : Word} (hr : s.rst = false) (hp : s.port = .got v) (ht : s.timer = none)
    (hs : s.st = .exec) : step s = exec s.cur.instr s := by
  simp [step, turn, hr, hp, ht, hs]

theorem step_of_failed {s : State} {a : Access} (hr : s.rst = false) (hp : s.port = .failed a) (ht : s.timer = none)
    (hs : s.st = .exec) : step s = exec s.cur.instr s := by
  simp [step, turn, hr, hp, ht, hs]

theorem step_of_accept {s : State} (hr : s.rst = false) (hf : CoreFree s) (hs : s.st = .idle) (hv : s.cmdValid = true) :
    step s = .next (accept s) := by
  simp [step, turn, hr, hf.1, hf.2, hs, hv]

theorem step_of_host {s : State} (hr : s.rst = false) (hf : CoreFree s) (hs : s.st = .idle) (hv : s.cmdValid = false) :
    step s = .next (hostStep s) := by
  simp [step, turn, hr, hf.1, hf.2, hs, hv]

/-- What a step that answers a next state has done, by the agent whose step it was (R5). -/
theorem step_next_cases {s t : State} (h : step s = .next t) :
    (s.rst = true ∧ t = applyReset s) ∨
    (s.rst = false ∧ (∃ a, s.port = .req a) ∧ t = portStep s) ∨
    (s.rst = false ∧ (∃ a, s.port = .atCtrl a) ∧ t = controllerStep s) ∨
    (s.rst = false ∧ (∀ a, s.port ≠ .req a) ∧ (∀ a, s.port ≠ .atCtrl a) ∧ s.timer ≠ none ∧ t = timerStep s) ∨
    (s.rst = false ∧ coreWaits s = false ∧ s.st = .exec ∧ exec s.cur.instr s = .next t) ∨
    (s.rst = false ∧ coreWaits s = false ∧ s.st = .idle ∧ s.cmdValid = true ∧ t = accept s) ∨
    (s.rst = false ∧ coreWaits s = false ∧ s.st = .idle ∧ s.cmdValid = false ∧ t = hostStep s) := by
  unfold step turn at h
  cases hr : s.rst with
  | true => simp [hr] at h; simp [h]
  | false =>
    simp only [hr, Bool.false_eq_true, if_false] at h
    cases hp : s.port with
    | req a => simp [hp] at h; simp [h]
    | atCtrl a => simp [hp] at h; simp [h]
    | idle | got v | failed a =>
      cases ht : s.timer with
      | some d => simp [hp, ht] at h; simp [h]
      | none =>
        have hw : coreWaits s = false := by simp [coreWaits, hp, ht]
        cases hs : s.st with
        | exec => simp [hp, ht, hs] at h; simp [hw, h]
        | idle =>
          cases hv : s.cmdValid <;> simp [hp, ht, hs, hv] at h <;> simp [hw, h]

/-! ## What the agents' steps do -/

/-- An answer of the PORT uses up a given answer or a draw. -/
theorem nextPortAnswer_cases (s : State) :
    ∃ b pa n, nextPortAnswer s = (b, { s with portAnswers := pa, drawN := n }) := by
  unfold nextPortAnswer
  split
  · next h => exact ⟨_, [], _, by rw [← h]⟩
  · next b pa h => exact ⟨b, pa, _, rfl⟩

/-- A value read uses up a given value or a draw. -/
theorem nextReadDraw_cases (s : State) : ∃ v rd n, nextReadDraw s = (v, { s with readDraws := rd, drawN := n }) := by
  unfold nextReadDraw
  split
  · next h => exact ⟨_, [], _, by rw [← h]⟩
  · next v rd h => exact ⟨v, rd, _, rfl⟩

/-- The choice of a wait's length uses up a given number or a draw. -/
theorem nextTimerWait_cases (s : State) :
    ∃ k tw n, nextTimerWait s = (k, { s with timerWaits := tw, drawN := n }) := by
  unfold nextTimerWait
  split
  · next h => exact ⟨_, [], _, by rw [← h]⟩
  · next k tw h => exact ⟨k, tw, _, rfl⟩

/-- What the PORT's step does: `ok` carries the access to the CONTROLLER; `err` loses its target and enters the trace (R11,
R58). -/
theorem portStep_cases {s : State} {a : Access} (h : s.port = .req a) :
    (∃ pa n, portStep s = { s with port := .atCtrl a, portAnswers := pa, drawN := n }) ∨
    (∃ pa n, portStep s = { s with
      port := .failed a, portAnswers := pa, drawN := n + 1, ctrl := s.ctrl.clobber a (Config.unknownReg n)
      trace := s.trace ++ [failedEvent a] }) := by
  obtain ⟨b, pa, n, e⟩ := nextPortAnswer_cases s
  unfold portStep
  simp only [h, e]
  cases b
  · exact .inr ⟨pa, n, by cases a <;> rfl⟩
  · exact .inl ⟨pa, n, rfl⟩

/-- What the CONTROLLER's step does: it performs the write, or answers the read with a draw (R11, R33, R58). -/
theorem controllerStep_cases {s : State} {a : Access} (h : s.port = .atCtrl a) :
    (∃ r v, a = .write r v ∧ controllerStep s =
      { s with ctrl := s.ctrl.set r v, port := .idle, trace := s.trace ++ [.write r v true] }) ∨
    (a = .readReady ∧ ∃ v rd n, controllerStep s =
      { s with port := .got v, readDraws := rd, drawN := n, trace := s.trace ++ [.read (some v)] }) := by
  obtain ⟨v, rd, n, e⟩ := nextReadDraw_cases s
  unfold controllerStep
  cases a with
  | write r v => exact .inl ⟨r, v, rfl, by simp only [h]⟩
  | readReady => exact .inr ⟨rfl, v, rd, n, by simp only [h, e]⟩

/-- What the TIMER's step does: it completes the wait or lets it go on, with the number of its steps then known (R11,
R239). -/
theorem timerStep_cases {s : State} {w : Wait} (h : s.timer = some w) :
    (∃ tw n, timerStep s =
      { s with timer := none, timerWaits := tw, drawN := n, trace := s.trace ++ [.delay w.tag] }) ∨
    (∃ k tw n, timerStep s = { s with timer := some ⟨w.tag, some k⟩, timerWaits := tw, drawN := n }) := by
  obtain ⟨d, _ | k⟩ := w
  · obtain ⟨_ | k, tw, n, e⟩ := nextTimerWait_cases s
    · exact .inl ⟨tw, n, by simp [timerStep, h, e, tickTimer]⟩
    · exact .inr ⟨k, tw, n, by simp [timerStep, h, e, tickTimer]⟩
  · cases k with
    | zero => exact .inl ⟨s.timerWaits, s.drawN, by simp [timerStep, h, tickTimer]⟩
    | succ k => exact .inr ⟨k, s.timerWaits, s.drawN, by simp [timerStep, h, tickTimer]⟩

/-- A wait with `k` steps left to go on has one less after the TIMER's step, or is complete (R242). -/
theorem timerStep_counts {s : State} {d : DelayTag} {k : Nat} (h : s.timer = some ⟨d, some k⟩) :
    timerStep s = tickTimer d k s := by
  simp only [timerStep, h]

/-- What `RST` does, but for the target of an access in flight (R230 to R232). -/
theorem applyReset_cases (s : State) : ∃ c n, applyReset s =
    { s with
      st := .idle, dsiCtl := 0, hsSaved := 0, cur := Cur.zero, upc := Upc.first, pollN := 0, result := 0, err := 0
      isDone := false, port := .idle, timer := none, ctrl := c, drawN := n } := by
  unfold applyReset loseInFlight
  cases s.port <;> exact ⟨_, _, rfl⟩

/-- What the HOST's step does (R70). -/
theorem hostStep_cases (s : State) :
    hostStep s = s ∨ ∃ c q, s.hostQueue = c :: q ∧ hostStep s = { s with cmdValid := true, hostIn := c, hostQueue := q } := by
  unfold hostStep
  cases hq : s.hostQueue with
  | nil => exact .inl rfl
  | cons c q => exact .inr ⟨c, q, rfl, rfl⟩

/-- What the assertion of `RST` does, but for the target of an access in flight (R230 to R232). -/
theorem raiseReset_cases (s : State) : ∃ c n, raiseReset s =
    { s with
      st := .idle, dsiCtl := 0, hsSaved := 0, cur := Cur.zero, upc := Upc.first, pollN := 0, result := 0, err := 0
      isDone := false, rst := true, port := .idle, timer := none, ctrl := c, drawN := n } := by
  obtain ⟨c, n, e⟩ := applyReset_cases s
  exact ⟨c, n, by rw [raiseReset, e]⟩

theorem raiseReset_atReset (s : State) : AtReset (raiseReset s) := by
  obtain ⟨c, n, e⟩ := raiseReset_cases s
  rw [e]
  exact ⟨rfl, rfl, rfl, rfl, rfl, rfl, rfl⟩

theorem applyReset_atReset (s : State) : AtReset (applyReset s) := by
  obtain ⟨c, n, e⟩ := applyReset_cases s
  rw [e]
  exact ⟨rfl, rfl, rfl, rfl, rfl, rfl, rfl⟩

/-- `step_next_cases` with what each agent's step does: the CORE's is the abort on an `err` answer or a line of the running
program. -/
theorem step_next_effects {s t : State} (h : step s = .next t) :
    (s.rst = true ∧ ∃ c n, t = { s with
      st := .idle, dsiCtl := 0, hsSaved := 0, cur := Cur.zero, upc := Upc.first, pollN := 0, result := 0, err := 0
      isDone := false, port := .idle, timer := none, ctrl := c, drawN := n }) ∨
    (s.rst = false ∧
      ((∃ a, s.port = .req a ∧ ∃ pa n, t = { s with port := .atCtrl a, portAnswers := pa, drawN := n }) ∨
       (∃ a, s.port = .req a ∧ ∃ pa n, t = { s with
          port := .failed a, portAnswers := pa, drawN := n + 1, ctrl := s.ctrl.clobber a (Config.unknownReg n)
          trace := s.trace ++ [failedEvent a] }) ∨
       (∃ r v, s.port = .atCtrl (.write r v) ∧
          t = { s with ctrl := s.ctrl.set r v, port := .idle, trace := s.trace ++ [.write r v true] }) ∨
       (s.port = .atCtrl .readReady ∧ ∃ v rd n,
          t = { s with port := .got v, readDraws := rd, drawN := n, trace := s.trace ++ [.read (some v)] }) ∨
       (∃ w, s.timer = some w ∧ (∀ a, s.port ≠ .req a) ∧ (∀ a, s.port ≠ .atCtrl a) ∧ ∃ tw n,
          t = { s with timer := none, timerWaits := tw, drawN := n, trace := s.trace ++ [.delay w.tag] }) ∨
       (∃ w, s.timer = some w ∧ (∀ a, s.port ≠ .req a) ∧ (∀ a, s.port ≠ .atCtrl a) ∧ ∃ k tw n,
          t = { s with timer := some ⟨w.tag, some k⟩, timerWaits := tw, drawN := n }) ∨
       (coreWaits s = false ∧ s.st = .exec ∧ (∃ a, s.port = .failed a) ∧ t = abort .busError s) ∨
       (coreWaits s = false ∧ s.st = .exec ∧ (∀ a, s.port ≠ .failed a) ∧
          ∃ l, (programOf s.cur.instr s.cur)[s.upc.line]? = some l ∧ runLine l.op s = .next t) ∨
       (coreWaits s = false ∧ s.st = .idle ∧ s.cmdValid = true ∧ t = accept s) ∨
       (coreWaits s = false ∧ s.st = .idle ∧ s.cmdValid = false ∧ t = hostStep s))) := by
  rcases step_next_cases h with ⟨h', rfl⟩ | ⟨hr, ⟨a, ha⟩, rfl⟩ | ⟨hr, ⟨a, ha⟩, rfl⟩ | ⟨hr, h1, h2, hne, rfl⟩ |
    ⟨hr, hw, he, h⟩ | ⟨hr, h1⟩ | ⟨hr, h1⟩
  · exact .inl ⟨h', applyReset_cases s⟩
  all_goals refine .inr ⟨hr, ?_⟩
  · rcases portStep_cases ha with e | e
    · exact .inl ⟨a, ha, e⟩
    · exact .inr (.inl ⟨a, ha, e⟩)
  · rcases controllerStep_cases ha with ⟨r, v, rfl, e⟩ | ⟨rfl, e⟩
    · exact .inr (.inr (.inl ⟨r, v, ha, e⟩))
    · exact .inr (.inr (.inr (.inl ⟨ha, e⟩)))
  · obtain ⟨w, hd⟩ := Option.ne_none_iff_exists'.1 hne
    rcases timerStep_cases hd with e | e
    · exact .inr (.inr (.inr (.inr (.inl ⟨w, hd, h1, h2, e⟩))))
    · exact .inr (.inr (.inr (.inr (.inr (.inl ⟨w, hd, h1, h2, e⟩)))))
  · rw [exec_eq_runProgram] at h
    rcases runProgram_next_cases h with ⟨hw', -⟩ | ⟨-, ha, e⟩ | ⟨-, ha, hl⟩
    · rw [hw] at hw'; cases hw'
    · exact .inr (.inr (.inr (.inr (.inr (.inr (.inl ⟨hw, he, ha, e⟩))))))
    · exact .inr (.inr (.inr (.inr (.inr (.inr (.inr (.inl ⟨hw, he, ha, hl⟩)))))))
  · exact .inr (.inr (.inr (.inr (.inr (.inr (.inr (.inr (.inl h1))))))))
  · exact .inr (.inr (.inr (.inr (.inr (.inr (.inr (.inr (.inr h1))))))))

/-! ## Runs -/

theorem runs_zero (s : State) : Runs 0 s s := rfl

theorem runs_succ {k : Nat} {s t u : State} (h : step s = .next t) (hk : Runs k t u) : Runs (k + 1) s u := by
  unfold Runs at *
  simp only [Host.Core.run]
  rw [show Sys2Proof.core.step s = .next t from h]
  exact hk

theorem runs_one {s t : State} (h : step s = .next t) : Runs 1 s t := runs_succ h (runs_zero t)

theorem runs_add {j k : Nat} {s t u : State} (h : Runs j s t) (hk : Runs k t u) : Runs (j + k) s u := by
  induction j generalizing s with
  | zero =>
    have : s = t := Host.Outcome.next.inj h
    subst this
    simpa using hk
  | succ j ih =>
    have hr : Host.Core.run Sys2Proof.core (j + 1) s = .next t := h
    simp only [Host.Core.run] at hr
    cases hs : step s with
    | next v =>
      rw [show Sys2Proof.core.step s = .next v from hs] at hr
      have := runs_succ hs (ih hr)
      rwa [show j + k + 1 = j + 1 + k by omega] at this
    | fault r => rw [show Sys2Proof.core.step s = .fault r from hs] at hr; cases hr
    | refused r => rw [show Sys2Proof.core.step s = .refused r from hs] at hr; cases hr

/-! ## From the issue of an access or a wait to its completion -/

/-- A write that the PORT answers `ok` reaches its register in two steps (R11, R58). -/
theorem runs_write_ok {s : State} {r : Reg} {v : Word} {pa : List Bool} (hr : s.rst = false)
    (hp : s.port = .req (.write r v)) (ha : s.portAnswers = true :: pa) :
    Runs 2 s { s with port := .idle, portAnswers := pa, ctrl := s.ctrl.set r v, trace := s.trace ++ [wEvent r v] } := by
  refine runs_succ (step_of_req hr hp) (runs_one ?_)
  rw [step_of_atCtrl (a := .write r v) (by simp [portStep, nextPortAnswer, hp, ha, hr])
    (by simp [portStep, nextPortAnswer, hp, ha])]
  simp [portStep, controllerStep, nextPortAnswer, hp, ha, wEvent]

/-- A ready read that the PORT answers `ok` has its value in two steps (R11). -/
theorem runs_read_ok {s : State} {v : Word} {pa : List Bool} {rd : List Word} (hr : s.rst = false)
    (hp : s.port = .req .readReady) (ha : s.portAnswers = true :: pa) (hd : s.readDraws = v :: rd) :
    Runs 2 s { s with port := .got v, portAnswers := pa, readDraws := rd, trace := s.trace ++ [rEvent v] } := by
  refine runs_succ (step_of_req hr hp) (runs_one ?_)
  rw [step_of_atCtrl (a := .readReady) (by simp [portStep, nextPortAnswer, hp, ha, hr])
    (by simp [portStep, nextPortAnswer, hp, ha])]
  simp [portStep, controllerStep, nextPortAnswer, nextReadDraw, hp, ha, hd, rEvent]

/-- A wait with `k` steps left to go on completes in `k + 1` steps (R239). -/
theorem runs_ticks {d : DelayTag} : ∀ (k : Nat) (s : State), s.rst = false → s.port = .idle →
    s.timer = some ⟨d, some k⟩ → Runs (k + 1) s { s with timer := none, trace := s.trace ++ [dEvent d] }
  | 0, s, hr, hp, ht => runs_one (by rw [step_of_timer hr hp ht, timerStep_counts ht]; rfl)
  | k + 1, s, hr, hp, ht =>
    runs_succ (step_of_timer hr hp ht) (by rw [timerStep_counts ht]; exact runs_ticks k _ hr hp rfl)

/-- A wait that the TIMER lets go on for `n` steps completes in `n + 1` steps (R239). -/
theorem runs_delay_ok {s : State} {d : DelayTag} {n : Nat} {tw : List Nat} (hr : s.rst = false) (hp : s.port = .idle)
    (ht : s.timer = some ⟨d, none⟩) (ha : s.timerWaits = n :: tw) :
    Runs (n + 1) s { s with timer := none, timerWaits := tw, trace := s.trace ++ [dEvent d] } := by
  have e : timerStep s = tickTimer d n { s with timerWaits := tw } := by simp [timerStep, nextTimerWait, ht, ha]
  cases n with
  | zero => exact runs_one (by rw [step_of_timer hr hp ht, e]; rfl)
  | succ n =>
    exact runs_succ (step_of_timer hr hp ht) (by rw [e]; exact runs_ticks n _ hr hp rfl)

end Sys2Proof.Machine
end

