-- ==== Sys2Proof/Laws/Config.lean ====
section
/-! SUPPORT. Facts about the OPEN parameters that hold for every value of them, and the ready values they give. -/

namespace Sys2Proof.Machine

/-- `READY_MASK` is nonzero (R9). -/
theorem readyMask_ne_zero : Config.readyMask ≠ 0 := by
  unfold Config.readyMask
  split
  · decide
  · assumption

/-- `LP_SEND_MASK` is nonzero: it is one-hot (R9). -/
theorem lpSendMask_ne_zero : Config.lpSendMask ≠ 0 := by
  intro h
  have hk : Config.lpSendPlace.val + 1 < 32 := by omega
  have := congrArg (fun w : Word => w.getLsbD (Config.lpSendPlace.val + 1)) h
  simp [Config.lpSendMask, hk] at this

/-- A bound is at least one read (R9). -/
theorem hsTimeout_pos {n : Nat} (h : Config.hsTimeout = some n) : 1 ≤ n := by
  unfold Config.hsTimeout at h
  cases hr : Config.hsTimeoutRaw with
  | none => rw [hr] at h; cases h
  | some k =>
    rw [hr] at h
    have : k + 1 = n := by simpa using h
    omega

/-- A read of all ones is ready, whatever the mask (R122). -/
@[simp] theorem isReady_allOnes : isReady (BitVec.allOnes 32) = true := by
  unfold isReady
  rw [BitVec.allOnes_and]
  simpa using readyMask_ne_zero

/-- A read of zero is not ready, whatever the mask (R122). -/
@[simp] theorem isReady_zero : isReady 0#32 = false := by
  simp [isReady]

/-- A wait that is answered ready at its first read ends ready, whatever the bound (R122). -/
theorem waitEndsReady_one {v : Word} (h : isReady v = true) : WaitEndsReady [v] := by
  refine ⟨[], v, rfl, by simp, h, ?_⟩
  cases hb : Config.hsTimeout with
  | none => trivial
  | some n => exact hsTimeout_pos hb

end Sys2Proof.Machine
end

