-- ==== Sys2Proof/Laws/Decode.lean ====
section
/-! SUPPORT. The laws of command words as four bytes, and what each row of the opcode map tests, byte by byte. -/

namespace Sys2Proof

open Machine

/-! ## Words as bytes -/

/-- A word is put together again from its bytes. -/
theorem commandWord_extract (w : Word) :
    commandWord (w.extractLsb' 24 8) (w.extractLsb' 16 8) (w.extractLsb' 8 8) (w.extractLsb' 0 8) = w := by
  unfold commandWord
  ext i hi
  simp only [BitVec.getElem_append, BitVec.getElem_extractLsb']
  split
  · simp [BitVec.getLsbD_eq_getElem hi]
  split
  · rw [show 8 + (i - 8) = i by omega]; simp [BitVec.getLsbD_eq_getElem hi]
  split
  · rw [show 16 + (i - 8 - 8) = i by omega]; simp [BitVec.getLsbD_eq_getElem hi]
  · rw [show 24 + (i - 8 - 8 - 8) = i by omega]; simp [BitVec.getLsbD_eq_getElem hi]

/-- The bytes of a word put together from bytes. -/
theorem wordBytes_commandWord (a2 a1 a0 low : Byte) : wordBytes (commandWord a2 a1 a0 low) = [low, a0, a1, a2] := by
  simp only [wordBytes, commandWord, List.cons.injEq, and_true]
  refine ⟨?_, ?_, ?_, ?_⟩ <;>
  · ext i hi
    simp only [BitVec.getElem_extractLsb', BitVec.getLsbD_append]
    simp [show i < 8 from hi, show ¬ (8 + i < 8) by omega, show ¬ (16 + i < 8) by omega, show ¬ (24 + i < 8) by omega,
      show ¬ (16 + i - 8 < 8) by omega, show ¬ (24 + i - 8 < 8) by omega, show ¬ (24 + i - 8 - 8 < 8) by omega,
      show 16 + i - 8 - 8 = i by omega, show 24 + i - 8 - 8 - 8 = i by omega]

/-- Two words put together from bytes are equal when the bytes are. -/
theorem commandWord_inj {a b c d a' b' c' d' : Byte} :
    commandWord a b c d = commandWord a' b' c' d' ↔ a = a' ∧ b = b' ∧ c = c' ∧ d = d' := by
  refine ⟨fun h => ?_, fun ⟨h1, h2, h3, h4⟩ => by rw [h1, h2, h3, h4]⟩
  have := congrArg wordBytes h
  rw [wordBytes_commandWord, wordBytes_commandWord] at this
  simp at this
  exact ⟨this.2.2.2, this.2.2.1, this.2.1, this.1⟩

/-- Comparing two words put together from bytes. -/
theorem commandWord_beq (a b c d a' b' c' d' : Byte) :
    (commandWord a b c d == commandWord a' b' c' d') = decide (a = a' ∧ b = b' ∧ c = c' ∧ d = d') := by
  rw [Bool.eq_iff_iff, beq_iff_eq, decide_eq_true_eq, commandWord_inj]

/-- Masking works byte by byte. -/
theorem commandWord_and (a b c d e f g h : Byte) :
    commandWord a b c d &&& commandWord e f g h = commandWord (a &&& e) (b &&& f) (c &&& g) (d &&& h) := by
  have append_and {m n : Nat} (x u : BitVec m) (y v : BitVec n) : (x ++ y) &&& (u ++ v) = (x &&& u) ++ (y &&& v) := by
    ext i hi
    simp only [BitVec.getElem_and, BitVec.getElem_append]
    split <;> simp
  simp only [commandWord, append_and]

/-- A full byte mask keeps the byte. -/
theorem and_fullByte (b : Byte) : b &&& 0xFF = b := by
  rw [show (0xFF : Byte) = BitVec.allOnes 8 by decide, BitVec.and_allOnes]

/-- An empty byte mask clears the byte. -/
theorem and_emptyByte (b : Byte) : b &&& 0x00 = 0x00 := BitVec.and_zero

/-- Every word is put together from four bytes. -/
theorem exists_commandWord (w : Word) : ∃ a2 a1 a0 low, w = commandWord a2 a1 a0 low :=
  ⟨_, _, _, _, (commandWord_extract w).symm⟩

/-! ## The fields of a word put together from bytes (R71) -/

theorem a0Field_commandWord (a2 a1 a0 low : Byte) : a0Field (commandWord a2 a1 a0 low) = a0 := by
  have := wordBytes_commandWord a2 a1 a0 low
  simp only [wordBytes, List.cons.injEq] at this
  exact this.2.1

theorem a1Field_commandWord (a2 a1 a0 low : Byte) : a1Field (commandWord a2 a1 a0 low) = a1 := by
  have := wordBytes_commandWord a2 a1 a0 low
  simp only [wordBytes, List.cons.injEq] at this
  exact this.2.2.1

theorem a2Field_commandWord (a2 a1 a0 low : Byte) : a2Field (commandWord a2 a1 a0 low) = a2 := by
  have := wordBytes_commandWord a2 a1 a0 low
  simp only [wordBytes, List.cons.injEq] at this
  exact this.2.2.2.1

theorem hField_commandWord (a2 a1 a0 low : Byte) : hField (commandWord a2 a1 a0 low) = a2 ++ a1 ++ a0 := by
  unfold hField commandWord
  ext i hi
  simp only [BitVec.getElem_extractLsb', BitVec.getLsbD_append]
  simp [show ¬ (8 + i < 8) by omega]
  rw [← BitVec.getLsbD_eq_getElem hi, BitVec.getLsbD_append, BitVec.getLsbD_append]

theorem opField_commandWord (a2 a1 a0 low : Byte) : opField (commandWord a2 a1 a0 low) = low.extractLsb' 0 4 := by
  unfold opField commandWord
  ext i hi
  simp only [BitVec.getElem_extractLsb', BitVec.getLsbD_append]
  simp [show i < 8 by omega]

theorem rsvField_commandWord (a2 a1 a0 low : Byte) : rsvField (commandWord a2 a1 a0 low) = low.extractLsb' 4 4 := by
  unfold rsvField commandWord
  ext i hi
  simp only [BitVec.getElem_extractLsb', BitVec.getLsbD_append]
  simp [show 4 + i < 8 by omega]

/-! ## Decoding a word put together from bytes (R72, R74) -/

/-- `decode(CMD)` of R74, byte by byte: `low` is {RSV, OP}. -/
theorem decodeCommand_commandWord (a2 a1 a0 low : Byte) :
    decodeCommand (commandWord a2 a1 a0 low) =
      if a2 = 0 ∧ a1 = 0 ∧ low = 0x01 then .rev8 a0
      else if low = 0x02 then .ecc6 (a2 ++ a1 ++ a0)
      else if a2 = 0 ∧ a1 = 0 ∧ a0 = 0 ∧ low = 0x03 then .crc16
      else if low = 0x04 then .sendShort a0 a1 a2
      else if a2 = 0 ∧ a1 = 0 ∧ a0 &&& 0xFE = 0 ∧ low = 0x05 then .sendLong (a0.getLsbD 0)
      else if a2 = 0 ∧ a1 = 0 ∧ a0 = 0 ∧ low = 0x06 then .bringUp
      else .illegal (commandWord a2 a1 a0 low) := by
  have m1 : (0xFFFF00FF : Word) = commandWord 0xFF 0xFF 0x00 0xFF := by decide
  have m2 : (0x000000FF : Word) = commandWord 0x00 0x00 0x00 0xFF := by decide
  have m3 : (0xFFFFFFFF : Word) = commandWord 0xFF 0xFF 0xFF 0xFF := by decide
  have m5 : (0xFFFFFEFF : Word) = commandWord 0xFF 0xFF 0xFE 0xFF := by decide
  have p1 : (0x00000001 : Word) = commandWord 0 0 0 0x01 := by decide
  have p2 : (0x00000002 : Word) = commandWord 0 0 0 0x02 := by decide
  have p3 : (0x00000003 : Word) = commandWord 0 0 0 0x03 := by decide
  have p4 : (0x00000004 : Word) = commandWord 0 0 0 0x04 := by decide
  have p5 : (0x00000005 : Word) = commandWord 0 0 0 0x05 := by decide
  have p6 : (0x00000006 : Word) = commandWord 0 0 0 0x06 := by decide
  have h1 : (commandWord a2 a1 a0 low &&& 0xFFFF00FF == 0x00000001) = decide (a2 = 0 ∧ a1 = 0 ∧ low = 0x01) := by
    rw [m1, p1, commandWord_and, and_fullByte, and_fullByte, and_emptyByte, and_fullByte, commandWord_beq]
    simp
  have h2 : (commandWord a2 a1 a0 low &&& 0x000000FF == 0x00000002) = decide (low = 0x02) := by
    rw [m2, p2, commandWord_and, and_emptyByte, and_emptyByte, and_emptyByte, and_fullByte, commandWord_beq]
    simp
  have h3 : (commandWord a2 a1 a0 low &&& 0xFFFFFFFF == 0x00000003) =
      decide (a2 = 0 ∧ a1 = 0 ∧ a0 = 0 ∧ low = 0x03) := by
    rw [m3, p3, commandWord_and, and_fullByte, and_fullByte, and_fullByte, and_fullByte, commandWord_beq]
  have h4 : (commandWord a2 a1 a0 low &&& 0x000000FF == 0x00000004) = decide (low = 0x04) := by
    rw [m2, p4, commandWord_and, and_emptyByte, and_emptyByte, and_emptyByte, and_fullByte, commandWord_beq]
    simp
  have h5 : (commandWord a2 a1 a0 low &&& 0xFFFFFEFF == 0x00000005) =
      decide (a2 = 0 ∧ a1 = 0 ∧ a0 &&& 0xFE = 0 ∧ low = 0x05) := by
    rw [m5, p5, commandWord_and, and_fullByte, and_fullByte, and_fullByte, commandWord_beq]
  have h6 : (commandWord a2 a1 a0 low &&& 0xFFFFFFFF == 0x00000006) =
      decide (a2 = 0 ∧ a1 = 0 ∧ a0 = 0 ∧ low = 0x06) := by
    rw [m3, p6, commandWord_and, and_fullByte, and_fullByte, and_fullByte, and_fullByte, commandWord_beq]
  unfold decodeCommand commandRows
  simp only [List.find?, CommandRow.hits, h1, h2, h3, h4, h5, h6]
  by_cases c1 : a2 = 0 ∧ a1 = 0 ∧ low = 0x01
  · simp only [eq_true c1, decide_true, if_true, a0Field_commandWord]
  by_cases c2 : low = 0x02
  · simp only [c1, eq_true c2, decide_true, decide_false, if_true, if_false, hField_commandWord]
  by_cases c3 : a2 = 0 ∧ a1 = 0 ∧ a0 = 0 ∧ low = 0x03
  · simp only [c1, c2, eq_true c3, decide_true, decide_false, if_true, if_false]
  by_cases c4 : low = 0x04
  · simp only [c1, c2, c3, eq_true c4, decide_true, decide_false, if_true, if_false, a0Field_commandWord,
      a1Field_commandWord, a2Field_commandWord]
  by_cases c5 : a2 = 0 ∧ a1 = 0 ∧ a0 &&& 0xFE = 0 ∧ low = 0x05
  · simp only [c1, c2, c3, c4, eq_true c5, decide_true, decide_false, if_true, if_false, a0Field_commandWord]
  by_cases c6 : a2 = 0 ∧ a1 = 0 ∧ a0 = 0 ∧ low = 0x06
  · simp only [c1, c2, c3, c4, c5, eq_true c6, decide_true, decide_false, if_true, if_false]
  · simp only [c1, c2, c3, c4, c5, c6, decide_false, if_false]

/-- The decoder reads the bytes of a word as that command word. -/
theorem decode_wordBytes (w : Word) : decode (wordBytes w) = .ok (decodeCommand w) := by
  simp only [wordBytes, decode, commandWord_extract]

/-! ## Reversal and packets -/

/-- Reversal is its own inverse, one byte at a time. -/
theorem rev8_rev8_byte : ∀ b : Byte, rev8 (rev8 b) = b := by decide

/-- A checksum is put together again from its bytes as they are sent. -/
theorem checksumOf_sent (c : Half) : checksumOf (rev8 (loByte c)) (rev8 (hiByte c)) = c := by
  unfold checksumOf loByte hiByte
  rw [rev8_rev8_byte, rev8_rev8_byte]
  ext i hi
  simp only [BitVec.getElem_append, BitVec.getElem_extractLsb']
  split
  · simp [BitVec.getLsbD_eq_getElem hi]
  · rw [show 8 + (i - 8) = i by omega]; simp [BitVec.getLsbD_eq_getElem hi]

end Sys2Proof
end

