-- ==== Sys2Proof/Laws/PerInstr.lean ====
section
/-! SUPPORT. The statements made per instruction: decoding an instruction's encoding gives its canonical form. -/

namespace Sys2Proof

open Machine

/-- A long packet's bytes decode to the packet when its payload fits and its checksum is the CRC or zero (R79, R130). -/
theorem decode_longPacketBytes (isDcs : Bool) (p : List Byte) (c : Half) (hp : p.length ≤ 255)
    (hc : c = 0 ∨ c = Machine.crc16 p) :
    decode (longPacketBytes isDcs p c) = .ok (.longPacket isDcs p c) := by
  obtain ⟨x, y, body, hb⟩ : ∃ x y body, p.map rev8 ++ [rev8 (loByte c), rev8 (hiByte c)] = x :: y :: body := by
    match p with
    | [] => exact ⟨_, _, _, rfl⟩
    | [a] => exact ⟨_, _, _, rfl⟩
    | a :: b :: q => exact ⟨_, _, _, rfl⟩
  have hbytes : longPacketBytes isDcs p c = Config.lpPreamble :: rev8 (longPacketType isDcs) :: rev8 (lengthLow p)
      :: rev8 0 :: rev8 (eccByte (header (longPacketType isDcs) (lengthLow p) 0)) :: x :: y :: body := by
    simp only [longPacketBytes, headerBytes, List.cons_append, List.nil_append, hb]
  have hlen : (rev8 (rev8 (lengthLow p))).toNat = p.length := by
    rw [rev8_rev8_byte]
    simp only [lengthLow, BitVec.toNat_ofNat]
    exact Nat.mod_eq_of_lt (by omega)
  have hz : rev8 0 = 0 := by decide
  have hbody : ∀ d, decodeLongBody d p.length (x :: y :: body) = .ok (.longPacket d p c) := by
    intro d
    have hdrop : (x :: y :: body).drop p.length = [rev8 (loByte c), rev8 (hiByte c)] := by
      rw [← hb, List.drop_append_of_le_length (by simp), List.drop_eq_nil_of_le (by simp), List.nil_append]
    have htake : ((x :: y :: body).take p.length).map rev8 = p := by
      rw [← hb, List.take_append_of_le_length (by simp), List.take_of_length_le (by simp), List.map_map]
      have : rev8 ∘ rev8 = id := funext rev8_rev8_byte
      rw [this, List.map_id]
    simp only [decodeLongBody, hdrop, htake, checksumOf_sent, hc, if_true]
  rw [hbytes]
  simp only [decode, decodeLongPacket, hz, ne_eq, not_true_eq_false, if_false]
  simp only [headerBytes, rev8_rev8_byte, hz, not_true_eq_false, if_false]
  rw [← rev8_rev8_byte (lengthLow p)] at *
  cases isDcs
  · simp only [longPacketType, Bool.false_eq_true, if_false, rev8_rev8_byte] at *
    simp [hlen, hbody]
  · simp only [longPacketType, if_true, rev8_rev8_byte] at *
    simp [hlen, hbody]

/-- The illegal words of R75 are those that no row of R72 matches. -/
theorem decodeCommand_of_illegalWord {w : Word} (h : illegalWord w = true) : decodeCommand w = .illegal w := by
  obtain ⟨a2, a1, a0, low, rfl⟩ := exists_commandWord w
  rw [decodeCommand_commandWord]
  simp only [illegalWord, argumentsNotZero, opField_commandWord, rsvField_commandWord, a0Field_commandWord,
    a1Field_commandWord, a2Field_commandWord] at h
  by_cases h1 : low = 0x01
  · subst h1
    simp at h ⊢
    intro h2; simp [h2] at h; simp [h]
  by_cases h2 : low = 0x02
  · subst h2; simp at h
  by_cases h3 : low = 0x03
  · subst h3
    simp at h ⊢
    intro h2 h4 h5; simp [h2, h4, h5] at h
  by_cases h4 : low = 0x04
  · subst h4; simp at h
  by_cases h5 : low = 0x05
  · subst h5
    simp at h ⊢
    intro h2 h4 h6
    rw [h2, h4] at h
    have : ∀ b : Byte, b &&& 254#8 = 0#8 → b.extractLsb' 1 7 = 0#7 := by decide
    simp [this a0 h6] at h
  by_cases h6 : low = 0x06
  · subst h6
    simp at h ⊢
    intro h2 h4 h5; simp [h2, h4, h5] at h
  rw [if_neg (fun h => h1 h.2.2), if_neg h2, if_neg (fun h => h3 h.2.2.2), if_neg h4, if_neg (fun h => h5 h.2.2.2),
    if_neg (fun h => h6 h.2.2.2)]

end Sys2Proof

namespace Sys2Proof.Laws.RoundTrip

open Sys2Proof Sys2Proof.Machine

/-- Decoding the instruction's encoding gives its canonical form. -/
def Statement (i : Instr) : Prop := i.wellFormed = true → decode (encode i) = .ok i.canonical

theorem rev8 (b : Byte) : Statement (.rev8 b) := by
  intro _
  simp [encode, decode_wordBytes, decodeCommand_commandWord, Instr.canonical]

theorem ecc6 (h : Header) : Statement (.ecc6 h) := by
  intro _
  have : h.extractLsb' 16 8 ++ h.extractLsb' 8 8 ++ h.extractLsb' 0 8 = h := by
    ext i hi
    simp only [BitVec.getElem_append, BitVec.getElem_extractLsb']
    split
    · simp [BitVec.getLsbD_eq_getElem hi]
    split
    · rw [show 8 + (i - 8) = i by omega]; simp [BitVec.getLsbD_eq_getElem hi]
    · rw [show 16 + (i - 8 - 8) = i by omega]; simp [BitVec.getLsbD_eq_getElem hi]
  simp [encode, decode_wordBytes, decodeCommand_commandWord, Instr.canonical, this]

theorem crc16 : Statement .crc16 := by intro _; decide

theorem sendShort (t w0 w1 : Byte) : Statement (.sendShort t w0 w1) := by
  intro _
  simp [encode, decode_wordBytes, decodeCommand_commandWord, Instr.canonical]

theorem sendLong (isDcs : Bool) : Statement (.sendLong isDcs) := by
  intro _; cases isDcs <;> decide

theorem bringUp : Statement .bringUp := by intro _; decide

theorem dcsNop : Statement .dcsNop := by intro _; decide

theorem dcsSleepOut : Statement .dcsSleepOut := by intro _; decide

theorem dcsDisplayOn : Statement .dcsDisplayOn := by intro _; decide

theorem dcsExitIdle : Statement .dcsExitIdle := by intro _; decide

theorem dcsLong : Statement .dcsLong := by intro _; decide

theorem genLong : Statement .genLong := by intro _; decide

theorem illegal (w : Word) : Statement (.illegal w) := by
  intro h
  rw [encode, decode_wordBytes, decodeCommand_of_illegalWord h]
  rfl

theorem lpTxWord (b : Byte) : Statement (.lpTxWord b) := by
  intro _
  rw [encode, decode_wordBytes]
  rfl

theorem shortPacket (t w0 w1 : Byte) : Statement (.shortPacket t w0 w1) := by
  intro _
  simp [encode, shortPacketBytes, headerBytes, decode, decodeShortPacket, rev8_rev8_byte, Instr.canonical]

theorem longPacket (isDcs : Bool) (p : List Byte) (c : Half) : Statement (.longPacket isDcs p c) := by
  intro h
  simp only [Instr.wellFormed, Bool.and_eq_true, decide_eq_true_eq, Bool.or_eq_true, beq_iff_eq] at h
  exact decode_longPacketBytes isDcs p c h.1 h.2

theorem lpPreamble : Statement .lpPreamble := by intro _; decide

theorem dtDcsShortNoparam : Statement .dtDcsShortNoparam := by intro _; decide

theorem dtDcsShortWrite : Statement .dtDcsShortWrite := by intro _; decide

theorem dtDcsLongWrite : Statement .dtDcsLongWrite := by intro _; decide

theorem dtGenericLongWrite : Statement .dtGenericLongWrite := by intro _; decide

theorem dcsCmdNop : Statement .dcsCmdNop := by intro _; decide

theorem dcsCmdSleepOut : Statement .dcsCmdSleepOut := by intro _; decide

theorem dcsCmdDisplayOn : Statement .dcsCmdDisplayOn := by intro _; decide

theorem dcsCmdExitIdleMode : Statement .dcsCmdExitIdleMode := by intro _; decide

end Sys2Proof.Laws.RoundTrip
end

