-- ==== Sys2Proof/Tests/Slice0.lean ====
section
/-! SUPPORT. The model's own tests: ill-formed terms that the checks refuse, words written out from the spec's encodings, one
step of each instruction against the values of spec/95_test_vectors.md and the rules' examples, and for every statement with
hypotheses a state that meets them. -/

namespace Sys2Proof.Tests

open Sys2Proof Sys2Proof.Machine

set_option maxRecDepth 20000

/-! ## Helpers -/

/-- A PanelConfig with `n` lanes. -/
def lanes (n : Byte) : PanelConfig := { zeroConfig with numLanes := n }

/-- The CORE in EXEC at position `u` of instruction `i`, with two lanes, payload [0x36, 0x00] and the real CRC on. -/
def running (i : Instr) (u : Upc) : State :=
  { State.reset with st := .exec, cur := ⟨i, 2, [0x36, 0x00], lanes 2, true⟩, upc := u }

/-- `running` with a latched `PLEN` of `n` and lane count `k`. -/
def runningWith (i : Instr) (n : Half) (k : Byte) : State :=
  { running i Upc.first with cur := ⟨i, n, [], lanes k, true⟩ }

/-- RESULT and ERR after one CORE step. -/
def outcomeOf (i : Instr) (s : State) : Option (Half × BitVec 3) :=
  match exec i s with
  | .next t => some (t.result, t.err)
  | .fault _ => none
  | .refused _ => none

/-- The access that one CORE step issues. -/
def accessOf (i : Instr) (u : Upc) : Option Access :=
  match exec i (running i u) with
  | .next t =>
    match t.port with
    | .req a => some a
    | .idle => none
    | .atCtrl _ => none
    | .got _ => none
    | .failed _ => none
  | .fault _ => none
  | .refused _ => none

/-- The word that `i` writes to LP_TX for the `k`-th byte of the line `n` of its program. -/
def txOf (i : Instr) (n k : Nat) : Option Access := accessOf i ⟨n, k, .txWrite⟩

/-! ## Well-formedness: ill-formed terms are refused -/

theorem test_wf_illegal_refuses_a_legal_word : (Instr.illegal 0x00000501).wellFormed = false := by decide

theorem test_wf_illegal_accepts_reserved_bits : (Instr.illegal 0x00000511).wellFormed = true := by decide

theorem test_wf_longPacket_refuses_256_bytes :
    (Instr.longPacket true (List.replicate 256 0) 0).wellFormed = false := by decide

theorem test_wf_longPacket_refuses_a_wrong_checksum :
    (Instr.longPacket true [0x36, 0x00] 0x12CB).wellFormed = false := by decide

theorem test_wf_longPacket_accepts_the_crc : (Instr.longPacket true [0x36, 0x00] 0x12CA).wellFormed = true := by decide

/-! ## Decoding: words written out bit by bit from R72, R77 to R82 -/

theorem test_decode_rev8 : decodeTableWord 32 0b00000000_00000000_00000101_0000_0001 = some (.rev8 0x05) := by decide

theorem test_decode_ecc6 : decodeTableWord 32 0b10000000_00000010_00000001_0000_0010 = some (.ecc6 0x800201) := by decide

theorem test_decode_crc16 : decodeTableWord 32 0b00000000_00000000_00000000_0000_0011 = some .crc16 := by decide

theorem test_decode_sendShort :
    decodeTableWord 32 0b00000001_00110110_00010101_0000_0100 = some (.sendShort 0x15 0x36 0x01) := by decide

theorem test_decode_sendLong_dcs :
    decodeTableWord 32 0b00000000_00000000_00000001_0000_0101 = some (.sendLong true) := by decide

theorem test_decode_sendLong_generic :
    decodeTableWord 32 0b00000000_00000000_00000000_0000_0101 = some (.sendLong false) := by decide

theorem test_decode_bringUp : decodeTableWord 32 0b00000000_00000000_00000000_0000_0110 = some .bringUp := by decide

/-- The words of the pseudo-instructions are those of their expansions (R77). -/
theorem test_decode_pseudo :
    decodeTableWord 32 0b00000000_00000000_00000101_0000_0100 = some (Instr.canonical .dcsNop) ∧
    decodeTableWord 32 0b00000000_00010001_00010101_0000_0100 = some (Instr.canonical .dcsSleepOut) ∧
    decodeTableWord 32 0b00000000_00101001_00010101_0000_0100 = some (Instr.canonical .dcsDisplayOn) ∧
    decodeTableWord 32 0b00000000_00111000_00010101_0000_0100 = some (Instr.canonical .dcsExitIdle) ∧
    decodeTableWord 32 0b00000000_00000000_00000001_0000_0101 = some (Instr.canonical .dcsLong) ∧
    decodeTableWord 32 0b00000000_00000000_00000000_0000_0101 = some (Instr.canonical .genLong) := by decide

/-- The illegal words of R75: an OP of no row, a nonzero RSV, a nonzero field that must be 0. -/
theorem test_decode_illegal :
    decodeTableWord 32 0x00000000 = some (.illegal 0x00000000) ∧
    decodeTableWord 32 0x00000007 = some (.illegal 0x00000007) ∧
    decodeTableWord 32 0x00000514 = some (.illegal 0x00000514) ∧
    decodeTableWord 32 0x00010501 = some (.illegal 0x00010501) ∧
    decodeTableWord 32 0x00000205 = some (.illegal 0x00000205) ∧
    decodeTableWord 32 0x00000106 = some (.illegal 0x00000106) := by decide

theorem test_decode_txWord : decodeTxWord 0b00000000000000000000000_1_10100000 = some (.lpTxWord 0xA0) := by decide

/-- A word without the marker bit is no transmit word (R80). -/
theorem test_decode_txWord_needs_the_marker : decodeTxWord 0x000000A0 = none := by decide

/-- The packet of R128's example, as bytes. -/
theorem test_decode_shortPacket :
    decode [0xE1, 0xA0, 0x00, 0x00, 0x50] = .ok (.shortPacket 0x05 0x00 0x00) := by decide

/-- The packet of R129's example, as bytes. -/
theorem test_decode_longPacket :
    decode [0xE1, 0x9C, 0x40, 0x00, 0xC8, 0x6C, 0x00, 0x53, 0x48] = .ok (.longPacket true [0x36, 0x00] 0x12CA) := by
  decide

/-- The wire bytes of R82; 0x29 alone is read as the packet type (note 9). -/
theorem test_decode_wire_bytes :
    decode [0xE1] = .ok .lpPreamble ∧ decode [0x05] = .ok .dtDcsShortNoparam ∧ decode [0x15] = .ok .dtDcsShortWrite ∧
    decode [0x39] = .ok .dtDcsLongWrite ∧ decode [0x29] = .ok .dtGenericLongWrite ∧ decode [0x00] = .ok .dcsCmdNop ∧
    decode [0x11] = .ok .dcsCmdSleepOut ∧ decode [0x38] = .ok .dcsCmdExitIdleMode ∧
    decode [0x29] = .ok (Instr.canonical .dcsCmdDisplayOn) := by decide

/-- Byte lists that are no item's encoding are rejected by name. -/
theorem test_decode_rejects :
    decode [] = .error .noItemOfThisLength ∧ decode [0x07] = .error (.noSuchWireByte 0x07) ∧
    decode [0xE0, 0xA0, 0x00, 0x00, 0x50] = .error (.wrongPreamble 0xE0) ∧
    decode [0xE1, 0xA0, 0x00, 0x00, 0x51] = .error .wrongEcc ∧
    decode [0xE1, 0x9C, 0x40, 0x00, 0xC8, 0x6C, 0x00, 0x53, 0x49] = .error .wrongChecksum := by decide

/-! ## One step of each instruction -/

theorem test_rev8 : outcomeOf (.rev8 0x05) (running (.rev8 0x05) Upc.first) = some (0x00A0, 0) := by decide

theorem test_ecc6 : outcomeOf (.ecc6 0x000005) (running (.ecc6 0x000005) Upc.first) = some (0x000A, 0) := by decide

theorem test_crc16 : outcomeOf .crc16 (running .crc16 Upc.first) = some (0x12CA, 0) := by decide

theorem test_crc16_too_long : outcomeOf .crc16 (runningWith .crc16 256 2) = some (0x0000, 5) := by decide

theorem test_illegal : outcomeOf (.illegal 0) (running (.illegal 0) Upc.first) = some (0x0000, 4) := by decide

theorem test_sendShort_type_byte : txOf (.sendShort 0x05 0x00 0x00) 0 1 = some (.write .lpTx 0x000001A0) := by decide

theorem test_sendShort_ecc_byte : txOf (.sendShort 0x05 0x00 0x00) 0 4 = some (.write .lpTx 0x00000150) := by decide

theorem test_sendLong_length_byte : txOf (.sendLong true) 1 2 = some (.write .lpTx 0x00000140) := by decide

theorem test_sendLong_crc_low_byte : txOf (.sendLong true) 1 7 = some (.write .lpTx 0x00000153) := by decide

theorem test_dcsNop : txOf .dcsNop 0 4 = some (.write .lpTx 0x00000150) := by decide

theorem test_dcsSleepOut : txOf .dcsSleepOut 0 4 = some (.write .lpTx 0x000001A4) := by decide

theorem test_dcsDisplayOn : txOf .dcsDisplayOn 0 4 = some (.write .lpTx 0x000001F0) := by decide

theorem test_dcsExitIdle : txOf .dcsExitIdle 0 4 = some (.write .lpTx 0x000001CC) := by decide

theorem test_dcsLong : txOf .dcsLong 1 1 = some (.write .lpTx 0x0000019C) := by decide

theorem test_genLong : txOf .genLong 1 1 = some (.write .lpTx 0x00000194) := by decide

theorem test_bringUp_zero_lanes : outcomeOf .bringUp (runningWith .bringUp 0 0) = some (0x0000, 1) := by decide

theorem test_bringUp_stops_the_timing_generator :
    accessOf .bringUp ⟨1, 0, .setSave⟩ = some (.write .timingCtl 0x00000000) := by decide

theorem test_lpTxWord : txOf (.lpTxWord 0xA0) 0 0 = some (.write .lpTx 0x000001A0) := by decide

theorem test_shortPacket : txOf (.shortPacket 0x15 0x11 0x00) 0 2 = some (.write .lpTx 0x00000188) := by decide

theorem test_longPacket_crc_high_byte :
    txOf (.longPacket true [0x36, 0x00] 0x12CA) 0 8 = some (.write .lpTx 0x00000148) := by decide

theorem test_lpPreamble : txOf .lpPreamble 0 0 = some (.write .lpTx 0x000001E1) := by decide

theorem test_dtDcsShortNoparam : txOf .dtDcsShortNoparam 0 0 = some (.write .lpTx 0x000001A0) := by decide

theorem test_dtDcsShortWrite : txOf .dtDcsShortWrite 0 0 = some (.write .lpTx 0x000001A8) := by decide

theorem test_dtDcsLongWrite : txOf .dtDcsLongWrite 0 0 = some (.write .lpTx 0x0000019C) := by decide

theorem test_dtGenericLongWrite : txOf .dtGenericLongWrite 0 0 = some (.write .lpTx 0x00000194) := by decide

theorem test_dcsCmdNop : txOf .dcsCmdNop 0 0 = some (.write .lpTx 0x00000100) := by decide

theorem test_dcsCmdSleepOut : txOf .dcsCmdSleepOut 0 0 = some (.write .lpTx 0x00000188) := by decide

theorem test_dcsCmdDisplayOn : txOf .dcsCmdDisplayOn 0 0 = some (.write .lpTx 0x00000194) := by decide

theorem test_dcsCmdExitIdleMode : txOf .dcsCmdExitIdleMode 0 0 = some (.write .lpTx 0x0000011C) := by decide

/-- The check value of the CRC (R103). -/
theorem test_crc16_check_value :
    crc16 [0x31, 0x32, 0x33, 0x34, 0x35, 0x36, 0x37, 0x38, 0x39] = 0x6F91 ∧ crc16 [0xFF, 0xFF] = 0x0000 := by decide

/-- The timing values of the panel of R166. -/
theorem test_timing_values :
    hActiveValue { zeroConfig with width := 640 } = 0x780 ∧
    vFrontPorchValue { zeroConfig with height := 960, vBackPorch := 28 } = 0x3DC ∧
    vActiveValue { zeroConfig with height := 960, vBackPorch := 28, vFrontPorch := 10 } = 0x3E6 := by decide

/-! ## Witnesses: for every statement with hypotheses, states and operands that meet them -/

/-- O1: an ILLEGAL word, and the longest payload. -/
theorem witness_DecodeEncodeRoundTrip :
    (Instr.rev8 0xFF).wellFormed = true ∧ (Instr.illegal 0xFFFFFFFF).wellFormed = true ∧
    (Instr.longPacket false (List.replicate 255 0xFF) 0).wellFormed = true := by decide

/-- The first and the last mask. -/
theorem witness_EccBitsAreMaskParities :
    [0xF12CB7, 0xF2555B, 0x749A6D, 0xB8E38E, 0xDF03F0, (0xEFFC00 : Header)][0]? = some 0xF12CB7 ∧
    [0xF12CB7, 0xF2555B, 0x749A6D, 0xB8E38E, 0xDF03F0, (0xEFFC00 : Header)][5]? = some 0xEFFC00 := by decide

/-- The first and the last header bit. -/
theorem witness_EccColumnsDetectOneAndTwoBitChanges :
    eccColumns[0]? = some 0b000111 ∧ eccColumns[23]? = some 0b111011 ∧ (0 < 24 ∧ 23 < 24 ∧ 0 ≠ 23) := by decide

theorem witness_Rev8_and_EccByte_indices : 0 < 8 ∧ 7 < 8 ∧ 0 < 6 ∧ 5 < 6 := by decide

theorem witness_ParametersMeetTheirConstraints : Reg.dsiCtl ≠ Reg.timingCtl := by decide

/-- PLEN at 255 and at 256. -/
theorem witness_PrimitiveCommandsTakeOneStep :
    (let s := runningWith .crc16 255 2; CoreFree s ∧ s.upc = Upc.first ∧ s.cur.plen.toNat ≤ 255) ∧
    (let s := runningWith .crc16 256 2; CoreFree s ∧ s.upc = Upc.first ∧ 255 < s.cur.plen.toNat) := by
  refine ⟨⟨⟨rfl, rfl⟩, rfl, ?_⟩, ⟨⟨rfl, rfl⟩, rfl, ?_⟩⟩ <;> decide

/-- Two states that differ in the shadow and the flag. -/
theorem witness_PrimitivesReadOnlyTheirOperands :
    let s := running .crc16 Upc.first
    let u := { running .crc16 Upc.first with dsiCtl := 0x00000101, cur := ⟨.crc16, 2, [0x36, 0x00], lanes 4, false⟩ }
    CoreFree s ∧ CoreFree u ∧ s.upc = Upc.first ∧ u.upc = Upc.first ∧ s.cur.plen = u.cur.plen ∧ s.cur.pl = u.cur.pl ∧
    s.cur.plen.toNat ≤ 255 ∧ s.cur.crcReal ≠ u.cur.crcReal := by
  exact ⟨⟨rfl, rfl⟩, ⟨rfl, rfl⟩, rfl, rfl, rfl, rfl, by decide, by decide⟩

theorem witness_IllegalWordsRaiseIllegalCommand :
    illegalWord 0x00000000 = true ∧ illegalWord 0xFFFFFF07 = true ∧ illegalWord 0x00000011 = true ∧
    CoreFree (running (.illegal 0) Upc.first) := by
  refine ⟨?_, ?_, ?_, ⟨rfl, rfl⟩⟩ <;> decide

/-- Every line of the handshake of every byte of a short packet, its first and its last among them, with the PORT idle. -/
theorem witness_SendersRunTheHandshake_line (p : HsLine) :
    let s := running .dcsNop ⟨0, 4, p⟩
    sendsAt .dcsNop s = some [0xE1, 0xA0, 0x00, 0x00, 0x50] ∧ [0xE1, 0xA0, 0x00, 0x00, (0x50 : Byte)][s.upc.txIdx]? = some 0x50 ∧
    s.timer = none ∧ s.port = .idle ∧ s.upc.hs = p := ⟨rfl, rfl, rfl, rfl, rfl⟩

/-- The two tests, with a value at hand. -/
theorem witness_SendersRunTheHandshake_test (p : HsLine) (v : Word) :
    let s := { running .lpPreamble ⟨0, 0, p⟩ with port := .got v }
    sendsAt .lpPreamble s = some [0xE1] ∧ [(0xE1 : Byte)][s.upc.txIdx]? = some 0xE1 ∧ s.timer = none ∧
    s.port = .got v ∧ s.upc.hs = p := ⟨rfl, rfl, rfl, rfl, rfl⟩

/-- SEND_LONG at its second line, and BRING_UP at its packet lines. -/
theorem witness_SendersRunTheHandshake_others :
    (sendsAt (.sendLong true) (running (.sendLong true) ⟨1, 0, .setSave⟩)).isSome = true ∧
    (sendsAt .bringUp (running .bringUp ⟨17, 0, .setSave⟩)).isSome = true ∧
    (sendsAt .bringUp (running .bringUp ⟨22, 4, .restoreWrite⟩)).isSome = true := by decide

theorem witness_ResultOnCompletion :
    CoreFree (running .bringUp ⟨33, 0, .setSave⟩) ∧ (running (.sendShort 0x05 0 0) ⟨1, 0, .setSave⟩).upc.line = 1 ∧
    (running (.sendLong true) ⟨2, 0, .setSave⟩).upc.line = 2 ∧ (running .bringUp ⟨33, 0, .setSave⟩).upc.line = 33 ∧
    (running .crc16 Upc.first).cur.plen.toNat ≤ 255 := by
  refine ⟨⟨rfl, rfl⟩, ?_⟩; decide

theorem witness_PseudoAndItemsEndAsTheyShould :
    (let s := running .dcsNop ⟨1, 0, .setSave⟩
     CoreFree s ∧ wireBytes .dcsNop s.cur = some [0xE1, 0xA0, 0x00, 0x00, 0x50] ∧ s.upc.line = sendLineOf .dcsNop + 1) ∧
    (let s := running .dcsLong ⟨2, 0, .setSave⟩
     CoreFree s ∧ wireBytes .dcsLong s.cur = some [0xE1, 0x9C, 0x40, 0x00, 0xC8, 0x6C, 0x00, 0x53, 0x48] ∧
     s.upc.line = sendLineOf .dcsLong + 1) := by
  refine ⟨⟨⟨rfl, rfl⟩, ?_⟩, ⟨⟨rfl, rfl⟩, ?_⟩⟩ <;> decide

theorem witness_LongPayloadsRaiseInvalidLength :
    (let s := runningWith .genLong 256 2; CoreFree s ∧ s.upc = Upc.first ∧ 255 < s.cur.plen.toNat) ∧
    (let s := runningWith .genLong 255 2; CoreFree s ∧ s.upc = Upc.first ∧ s.cur.plen.toNat ≤ 255) ∧
    Instr.checksLength .genLong = true := by
  refine ⟨⟨⟨rfl, rfl⟩, rfl, ?_⟩, ⟨⟨rfl, rfl⟩, rfl, ?_⟩, ?_⟩ <;> decide

/-- 0, 1, 4 and 5 lanes. -/
theorem witness_LaneCountIsCheckedFirst :
    CoreFree (runningWith .bringUp 0 0) ∧ (runningWith .bringUp 0 0).upc = Upc.first ∧
    (runningWith .bringUp 0 0).cur.cfg.numLanes.toNat < 1 ∧ 4 < (runningWith .bringUp 0 5).cur.cfg.numLanes.toNat ∧
    1 ≤ (runningWith .bringUp 0 1).cur.cfg.numLanes.toNat ∧ (runningWith .bringUp 0 4).cur.cfg.numLanes.toNat ≤ 4 := by
  refine ⟨⟨rfl, rfl⟩, rfl, ?_⟩; decide

/-- The first and the last of the lines. -/
theorem witness_BringUpRunsItsLinesInOrder :
    (let s := running .bringUp ⟨1, 0, .setSave⟩
     CoreFree s ∧ s.upc.line = 1 ∧ (1, wr .timingCtl 0x00000000#32) ∈ bringUpEffects s.cur.cfg) ∧
    (let s := running .bringUp ⟨32, 0, .setSave⟩
     CoreFree s ∧ s.upc.line = 32 ∧ (32, wr .timingCtl 0x00000001#32) ∈ bringUpEffects s.cur.cfg) := by
  refine ⟨⟨⟨rfl, rfl⟩, rfl, ?_⟩, ⟨⟨rfl, rfl⟩, rfl, ?_⟩⟩ <;> simp [bringUpEffects]

theorem witness_TheCoreWaitsForItsAnswers :
    (wait .clk State.reset).timer ≠ none ∧ (issue .readReady State.reset).port = .req .readReady ∧
    ({ State.reset with port := .atCtrl .readReady } : State).port = .atCtrl .readReady := by
  refine ⟨?_, rfl, rfl⟩; decide

/-- A step that answers a next state, and one that changes ERR. -/
theorem witness_exec_answers :
    exec (.rev8 0x05) (running (.rev8 0x05) Upc.first) =
      .next (finish (some 0x00A0) (running (.rev8 0x05) Upc.first)) ∧
    exec (.illegal 0) (running (.illegal 0) Upc.first) = .next (abort .illegalCommand (running (.illegal 0) Upc.first)) ∧
    (abort .illegalCommand (running (.illegal 0) Upc.first)).err ≠ (running (.illegal 0) Upc.first).err := by
  refine ⟨rfl, rfl, ?_⟩; decide

/-- The HOST presents a command: no payload, and the longest. -/
def presenting (w : Word) (plen : Half) : State :=
  { State.reset with cmdValid := true, hostIn := ⟨w, plen, List.replicate 255 0xAA, lanes 2, true⟩ }

theorem witness_acceptance (plen : Half) :
    let s := presenting 0x00000105 plen
    s.rst = false ∧ CoreFree s ∧ s.st = .idle ∧ s.cmdValid = true := ⟨rfl, ⟨rfl, rfl⟩, rfl, rfl⟩

theorem witness_StepRunsTheDecodedCommand :
    (let s := running .crc16 Upc.first; s.rst = false ∧ s.st = .exec ∧ s.timer = none ∧ s.port = .idle) ∧
    (let s := { running .dcsNop ⟨0, 0, .wait1Test⟩ with port := .got 7 }
     s.rst = false ∧ s.st = .exec ∧ s.timer = none ∧ s.port = .got 7) ∧
    (let s := { running .dcsNop ⟨0, 0, .wait1Test⟩ with port := .failed .readReady }
     s.rst = false ∧ s.st = .exec ∧ s.timer = none ∧ s.port = .failed .readReady) :=
  ⟨⟨rfl, rfl, rfl, rfl⟩, ⟨rfl, rfl, rfl, rfl⟩, ⟨rfl, rfl, rfl, rfl⟩⟩

theorem witness_AcceptanceLatchesTheCommand :
    (presenting 0x00000105 0).hostIn.plen.toNat ≤ 255 ∧ (presenting 0x00000105 255).hostIn.plen.toNat ≤ 255 ∧
    254 < (presenting 0x00000105 255).hostIn.plen.toNat := by decide

/-- A running command's step, and the HOST's moves. -/
theorem witness_ARunningCommandKeepsItsInputs :
    (let s := running .crc16 Upc.first
     s.rst = false ∧ s.st = .exec ∧ step s = .next (finish (some 0x12CA) s)) ∧
    OutsideMove (running .crc16 Upc.first) { running .crc16 Upc.first with hostIn := (presenting 0x00000003 1).hostIn } :=
  ⟨⟨rfl, rfl, rfl⟩, .drive _ _ (fun h => by cases h)⟩

/-- An issued write, answered `ok` and `err`. -/
theorem witness_AWriteReachesExactlyItsRegister :
    let s := { issue (.write .timingCtl 1) (running .bringUp ⟨33, 0, .setSave⟩) with portAnswers := [true] }
    s.rst = false ∧ s.port = .req (.write .timingCtl 1) ∧ s.portAnswers = true :: [] := ⟨rfl, rfl, rfl⟩

theorem witness_AReadReturnsTheDraw :
    let s := { issue .readReady (running .dcsNop ⟨0, 0, .wait1Test⟩) with portAnswers := [true], readDraws := [7] }
    s.rst = false ∧ s.port = .req .readReady ∧ s.portAnswers = true :: [] ∧ s.readDraws = 7 :: [] := ⟨rfl, rfl, rfl, rfl⟩

theorem witness_APortErrorAborts (a : Access) :
    let s := { issue a (running .dcsNop ⟨0, 0, .wait1Test⟩) with portAnswers := [false] }
    s.rst = false ∧ s.st = .exec ∧ s.timer = none ∧ s.port = .req a ∧ s.portAnswers = false :: [] :=
  ⟨rfl, rfl, rfl, rfl, rfl⟩

/-- A register that is the target of a write, and one that is not (R9: the offsets are distinct). -/
theorem witness_AFailedAccessLosesItsTarget (v : Word) : Config.off .lpTx = (Access.write .lpTx v).offset := rfl

theorem witness_EveryInstructionAbortsOnAnError (a : Access) :
    let s := { running .dcsNop ⟨0, 0, .wait1Test⟩ with port := .failed a }
    s.timer = none ∧ s.port = .failed a := ⟨rfl, rfl⟩

/-- Waits of every length. -/
theorem witness_AWaitEndsWhenTheTimerSays (n : Nat) :
    let s := { wait .clk (running .bringUp ⟨16, 0, .setSave⟩) with timerWaits := [n] }
    s.rst = false ∧ s.port = .idle ∧ s.timer = some ⟨.clk, none⟩ ∧ s.timerWaits = n :: [] := ⟨rfl, rfl, rfl, rfl⟩

/-- BRING_UP in the wait of B7, which the TIMER is about to complete. -/
def waiting : State := { running .bringUp ⟨16, 0, .setSave⟩ with timer := some ⟨.clk, some 0⟩ }

/-- The wait completes, and `RST` is raised and held. -/
def waitingHistory : Nat → State
  | 0 => waiting
  | 1 => timerStep waiting
  | _ + 2 => raiseReset (timerStep waiting)

theorem waiting_inv : Inv waiting := by
  refine ⟨?_, by decide, ?_, ?_, ?_, ?_, ?_, ?_, ?_⟩
  · intro h; cases h
  · intro h; cases h
  · intro _; exact ⟨rfl, rfl⟩
  · intro _; exact ⟨rfl, rfl⟩
  · intro _; rfl
  · intro _ h; cases h
  · intro _ h; cases h
  · intro _ _; rfl

theorem witness_EveryWaitCompletes :
    History waitingHistory ∧ Inv (waitingHistory 0) ∧ (waitingHistory 0).timer = some ⟨.clk, some 0⟩ := by
  have held : ∀ n, step (waitingHistory (n + 2)) = .next (waitingHistory (n + 3)) := fun _ => rfl
  refine ⟨⟨fun n => ?_, fun n => ⟨n + 2, by omega, held n⟩⟩, waiting_inv, rfl⟩
  match n with
  | 0 => exact .inl rfl
  | 1 => exact .inr (.raiseReset _)
  | n + 2 => exact .inl (held n)

/-- IDLE with nothing presented, with and without a command in the HOST's queue. -/
theorem witness_AnIdleStepPresentsTheNextCommand :
    let s := { State.reset with hostQueue := [⟨0x00000003, 0, [], lanes 1, false⟩] }
    s.rst = false ∧ CoreFree s ∧ s.st = .idle ∧ s.cmdValid = false ∧ State.reset.hostQueue = [] :=
  ⟨rfl, ⟨rfl, rfl⟩, rfl, rfl, rfl⟩

theorem witness_ShadowAndControllerAgreeAfterAWrite :
    let s := { running .bringUp ⟨17, 0, .setSave⟩ with dsiCtl := 1, port := .atCtrl (.write .dsiCtl 1) }
    ShadowWriteInv s ∧ s.rst = false ∧ s.port = .atCtrl (.write .dsiCtl 1) ∧ step s = .next (controllerStep s) := by
  refine ⟨?_, rfl, rfl, rfl⟩
  intro v hv
  rcases hv with h | h
  · cases h
  · cases h; rfl

/-- `RST` raised while a poll is outstanding, and held. -/
theorem witness_Rst :
    let s := { running .dcsNop ⟨0, 0, .wait1Test⟩ with port := .req .readReady }
    (raiseReset s).rst = true ∧ s.port = .req .readReady ∧ step (raiseReset s) = .next (applyReset (raiseReset s)) ∧
    Reach State.reset (raiseReset State.reset) := ⟨rfl, rfl, rfl, .outside .start (.raiseReset _)⟩

/-- A state in the middle of DCS_NOP, about to write LP_TX after SET's write and a ready poll. -/
def sending : State :=
  { running .dcsNop ⟨0, 0, .txWrite⟩ with
    dsiCtl := Config.lpSendMask
    trace := [wEvent .dsiCtl Config.lpSendMask, rEvent (BitVec.allOnes 32)] }

theorem sending_order : HandshakeOrder sending := by
  refine ⟨fun _ => ⟨rfl, rfl⟩, ?_, ?_, ?_, ?_, ?_, ?_, ?_⟩
  · intro h; cases h rfl
  · intro r v h; rcases h with h | h <;> cases h
  · intro q h; cases h
  · intro q v h; cases h
  · intro q h
    cases h
    exact ⟨[wEvent .dsiCtl Config.lpSendMask], _, rfl, ⟨[], _, [], rfl, by simp⟩, isReady_allOnes⟩
  · intro r v h; cases h
  · intro h; cases h

/-- The invariants hold there, and a step answers a next state. -/
theorem witness_invariants :
    Inv sending ∧ HandshakeInv sending ∧ ShadowWriteInv sending ∧ TxInv sending ∧ ∃ t, step sending = .next t := by
  refine ⟨⟨?_, by decide, ?_, ?_, ?_, ?_, ?_, ?_, ?_⟩, ⟨?_, ?_, ?_⟩, ?_, ⟨?_, ?_, ?_, ?_, ?_⟩, _, rfl⟩
  · intro h; cases h
  · intro h; cases h
  · intro _; exact ⟨rfl, rfl⟩
  · intro _; show 0 < 5; decide
  · intro _; rfl
  · intro _ h; cases h
  · intro _ h; cases h
  · intro _ _; rfl
  · intro _ h; cases h
  · intro _ _; show Config.lpSendMask = 0 ||| Config.lpSendMask; simp
  · intro _ h; cases h
  · intro v h; rcases h with h | h <;> cases h
  · intro pre e suf h he
    rcases pre with _ | ⟨a, _ | ⟨b, pre⟩⟩
    · simp only [sending, List.nil_append, List.cons.injEq] at h; rw [← h.1] at he; cases he
    · simp only [sending, List.cons_append, List.nil_append, List.cons.injEq] at h; rw [← h.2.1] at he; cases he
    · simp [sending] at h
  · intro v h; cases h
  · intro _ _; exact ⟨⟨rfl, rfl⟩, [_], _, rfl, isReady_allOnes⟩
  · intro v h; rcases h with h | h <;> cases h
  · intro _; exact sending_order

/-- The moves that keep the invariants there: the HOST's, and both of `RST`. -/
theorem witness_OutsideMovesKeepTheInvariants :
    OutsideMove sending { sending with hostIn := HostCmd.zero } ∧ OutsideMove sending (raiseReset sending) ∧
    OutsideMove (raiseReset sending) (releaseReset (raiseReset sending)) :=
  ⟨.drive _ _ (fun h => by cases h), .raiseReset _, .releaseReset _⟩

/-- The shadow invariant, with CLK_EN set. -/
theorem witness_ShadowSetsOnlyItsFields :
    let s := { running .bringUp ⟨15, 0, .setSave⟩ with dsiCtl := Config.clkEn }
    ShadowInv s ∧ ∃ t, step s = .next t := by
  refine ⟨⟨?_, ?_, fun _ _ _ => by decide⟩, _, rfl⟩
  · show Config.clkEn &&& _ = 0
    rw [BitVec.not_or, BitVec.not_or, ← BitVec.and_assoc, ← BitVec.and_assoc]
    simp
  · intro _ h; exact absurd rfl h

/-- A command presented after reset, and the step that accepts it. -/
theorem witness_ReachableStatesGoOn : Reach State.reset (accept (presenting 0x00000003 0)) :=
  .step (.outside .start (.present State.reset (presenting 0x00000003 0).hostIn rfl)) rfl

/-- A word differs from its complement. -/
theorem ne_not (v : Word) : v ≠ ~~~ v := by
  intro h
  have := congrArg (fun w : Word => w.getLsbD 0) h
  simp at this

/-- Each of the lines that change the shadow, and both ways in which RST does. -/
theorem witness_OnlyListedLinesWriteTheShadow :
    (let s := { running .bringUp ⟨3, 0, .setSave⟩ with dsiCtl := 1 }
     OutsideMove s (raiseReset s) ∧ (raiseReset s).dsiCtl ≠ s.dsiCtl) ∧
    (let s := { running .bringUp ⟨3, 0, .setSave⟩ with dsiCtl := 1, rst := true }
     step s = .next (applyReset s) ∧ (applyReset s).dsiCtl ≠ s.dsiCtl) ∧
    (let s := { running .bringUp ⟨3, 0, .setSave⟩ with dsiCtl := 1 }
     step s = .next (nextLine { s with dsiCtl := 0 }) ∧ (nextLine { s with dsiCtl := 0 }).dsiCtl ≠ s.dsiCtl) ∧
    (let s := { running .bringUp ⟨6, 0, .setSave⟩ with dsiCtl := ~~~ Config.laneEnc 2 }
     step s = .next (nextLine { s with dsiCtl := Config.laneEnc 2 }) ∧
     (nextLine { s with dsiCtl := Config.laneEnc 2 }).dsiCtl ≠ s.dsiCtl) ∧
    (let s := running .bringUp ⟨14, 0, .setSave⟩
     step s = .next (nextLine { s with dsiCtl := 0 ||| 1 }) ∧ (nextLine { s with dsiCtl := 0 ||| 1 }).dsiCtl ≠ s.dsiCtl) ∧
    (let s := running .dcsNop ⟨0, 0, .setShadow⟩
     step s = .next (gotoHs .setWrite { s with dsiCtl := 0 ||| Config.lpSendMask }) ∧
     (gotoHs .setWrite { s with dsiCtl := 0 ||| Config.lpSendMask }).dsiCtl ≠ s.dsiCtl) ∧
    (let s := { running .dcsNop ⟨0, 0, .restoreShadow⟩ with dsiCtl := 1 }
     step s = .next (gotoHs .restoreWrite { s with dsiCtl := s.hsSaved }) ∧
     (gotoHs .restoreWrite { s with dsiCtl := s.hsSaved }).dsiCtl ≠ s.dsiCtl) := by
  refine ⟨⟨.raiseReset _, ?_⟩, ⟨rfl, ?_⟩, ⟨rfl, ?_⟩, ⟨rfl, ne_not _⟩, ⟨rfl, ?_⟩, ⟨rfl, ?_⟩, ⟨rfl, ?_⟩⟩
  case refine_5 =>
    show 0 ||| Config.lpSendMask ≠ 0
    simpa using lpSendMask_ne_zero
  all_goals decide

/-! ### Whole runs: every wait is answered ready at its first read -/

/-- A ready answer. -/
def yes : Word := BitVec.allOnes 32

theorem yes_ends : WaitEndsReady [yes] := waitEndsReady_one isReady_allOnes

/-- The polls of `n` bytes. -/
def quickPolls (n : Nat) : Polls := List.replicate n ([yes], [yes])

theorem quickPolls_end (n : Nat) : PollsEndReady (quickPolls n) := by
  intro p hp
  rw [List.eq_of_mem_replicate hp]
  exact ⟨yes_ends, yes_ends⟩

/-- The state at the SET of a byte, with the answers of one handshake. -/
theorem witness_AHandshakeCompletes :
    let s := { running .dcsNop ⟨0, 4, .setSave⟩ with portAnswers := List.replicate 5 true, readDraws := [yes, yes] }
    AtByte s [0xE1, 0xA0, 0x00, 0x00, 0x50] 0x50 ∧ WaitEndsReady [yes] ∧
    s.portAnswers = List.replicate (3 + ([yes].length + [yes].length)) true ++ [] ∧ s.readDraws = [yes] ++ [yes] ++ [] :=
  ⟨⟨rfl, rfl, ⟨rfl, rfl⟩, rfl, rfl, rfl⟩, yes_ends, rfl, rfl⟩

theorem witness_APacketCompletes :
    let s := { running .dcsLong Upc.first with
      portAnswers := List.replicate (packetAccesses (quickPolls 9)) true ++ [], readDraws := pollValues (quickPolls 9) ++ [] }
    Started .dcsLong s ∧ wireBytes .dcsLong s.cur = some [0xE1, 0x9C, 0x40, 0x00, 0xC8, 0x6C, 0x00, 0x53, 0x48] ∧
    s.cur.plen.toNat ≤ 255 ∧ (quickPolls 9).length = [0xE1, 0x9C, 0x40, 0x00, 0xC8, 0x6C, 0x00, 0x53, (0x48 : Byte)].length ∧
    PollsEndReady (quickPolls 9) :=
  ⟨⟨rfl, rfl, rfl, rfl, ⟨rfl, rfl⟩, rfl, rfl⟩, by decide, by decide, rfl, quickPolls_end 9⟩

/-- The ready test of LP_PREAMBLE's only byte with a ready value at hand. -/
theorem preamble_test {s : State} {p q : HsLine} (hp : s.port = .got yes) (hr : s.rst = false) (ht : s.timer = none)
    (hs : s.st = .exec) (hi : s.cur.instr = .lpPreamble) (hu : s.upc = ⟨0, 0, p⟩)
    (hq : (p = .wait1Test ∧ q = .txWrite) ∨ (p = .wait2Test ∧ q = .restoreShadow)) :
    step s = .next (gotoHs q { s with port := .idle }) := by
  rw [step_of_got hr hp ht hs, hi]
  show runProgram (emitProgram [0xE1]) s = _
  rw [runProgram_of_got hp ht (l := ⟨.main, .send [0xE1]⟩) (by rw [hu]; rfl)]
  have : isReady yes = true := isReady_allOnes
  rcases hq with ⟨rfl, rfl⟩ | ⟨rfl, rfl⟩ <;> simp [runLine, sendLine, hsLine, pollTest, hu, hp, this]

/-- The command that runs in `s` ends, without error. -/
def EndsWell (s : State) : Prop := ∃ t, CommandRun s t ∧ t.st = .idle ∧ t.err = 0

theorem EndsWell.last {s t : State} (hs : s.st = .exec) (h : step s = .next t) (hi : t.st = .idle) (he : t.err = 0) :
    EndsWell s := ⟨t, .last hs h, hi, he⟩

theorem EndsWell.more {s t : State} (hs : s.st = .exec) (h : step s = .next t) (ht : EndsWell t) : EndsWell s := by
  obtain ⟨u, hr, hu⟩ := ht
  exact ⟨u, .more hs h hr, hu⟩

/-- LP_PREAMBLE with the answers of its one handshake, from its first line to its end. -/
theorem witness_PacketTraceCounts :
    let s := { running .lpPreamble Upc.first with portAnswers := List.replicate 5 true, readDraws := [yes, yes] }
    Started .lpPreamble s ∧ wireBytes .lpPreamble s.cur = some [0xE1] ∧ EndsWell s := by
  refine ⟨⟨rfl, rfl, rfl, rfl, ⟨rfl, rfl⟩, rfl, rfl⟩, rfl, ?_⟩
  iterate 9 refine .more rfl rfl ?_
  refine .more rfl (preamble_test rfl rfl rfl rfl rfl rfl (.inl ⟨rfl, rfl⟩)) ?_
  iterate 7 refine .more rfl rfl ?_
  refine .more rfl (preamble_test rfl rfl rfl rfl rfl rfl (.inr ⟨rfl, rfl⟩)) ?_
  iterate 4 refine .more rfl rfl ?_
  exact .last rfl rfl rfl rfl

/-- BRING_UP with one and with four lanes. -/
theorem witness_BringUpCompletes :
    let p := quickPolls 5
    let s := { runningWith .bringUp 0 1 with
      portAnswers := List.replicate (18 + packetAccesses (p ++ p ++ p ++ p)) true ++ []
      readDraws := pollValues (p ++ p ++ p ++ p) ++ [], timerWaits := [0, 1, 2, 3, 4, 5, 6] ++ [] }
    Started .bringUp s ∧ 1 ≤ s.cur.cfg.numLanes.toNat ∧ (runningWith .bringUp 0 4).cur.cfg.numLanes.toNat ≤ 4 ∧
    p.length = 5 ∧ PollsEndReady p :=
  ⟨⟨rfl, rfl, rfl, rfl, ⟨rfl, rfl⟩, rfl, rfl⟩, by decide, by decide, rfl, quickPolls_end 5⟩

/-- Waits of every length, so that each side of the bound is met, in both phases. -/
theorem witness_AWaitPollsUntilItsBound (k : Nat) (read : HsLine) (h : read = .wait1Read ∨ read = .wait2Read) :
    let nots := List.replicate (k + 1) (0 : Word)
    let s := { running .lpPreamble ⟨0, 0, read⟩ with
      portAnswers := List.replicate nots.length true ++ [], readDraws := nots ++ [] }
    s.rst = false ∧ s.st = .exec ∧ CoreFree s ∧ sendsAt s.cur.instr s = some [0xE1] ∧
    [(0xE1 : Byte)][s.upc.txIdx]? = some 0xE1 ∧ (read = .wait1Read ∨ read = .wait2Read) ∧ s.upc.hs = read ∧ s.pollN = 0 ∧
    (∀ v ∈ nots, v &&& Config.readyMask = 0) ∧ nots ≠ [] := by
  refine ⟨rfl, rfl, ⟨rfl, rfl⟩, rfl, rfl, h, rfl, rfl, ?_, ?_⟩
  · intro v hv
    rw [List.eq_of_mem_replicate hv]
    exact BitVec.zero_and
  · simp

/-- Each phase of the handshake, its access refused, after no and after some not-ready reads where the bound allows them. -/
theorem witness_ShadowAfterAnAbortedHandshake (oks : Nat) (w1 w2 : List Word) :
    let s := { running .lpPreamble ⟨0, 0, .setSave⟩ with
      portAnswers := List.replicate oks true ++ false :: [], readDraws := w1 ++ w2 ++ [] }
    AtByte s [0xE1] 0xE1 ∧ FailsIn .set [] [] 0 ∧ FailsIn .wait1 [] [] 1 ∧ FailsIn .write [yes] [] 2 ∧
    FailsIn .wait2 [yes] [] 3 ∧ FailsIn .restore [yes] [yes] 4 ∧
    (Config.hsTimeout = none → FailsIn .wait2 [yes] [0, 0] 5) := by
  have none_read : WaitGoesOn [] := by
    refine ⟨by simp, ?_⟩
    cases hb : Config.hsTimeout with
    | none => trivial
    | some n => exact hsTimeout_pos hb
  refine ⟨⟨rfl, rfl, ⟨rfl, rfl⟩, rfl, rfl, rfl⟩, ⟨rfl, rfl, rfl⟩, ⟨none_read, rfl, rfl⟩, ⟨yes_ends, rfl, rfl⟩,
    ⟨yes_ends, none_read, rfl⟩, ⟨yes_ends, yes_ends, rfl⟩, fun h => ⟨yes_ends, ⟨by simp, by rw [h]; trivial⟩, rfl⟩⟩

end Sys2Proof.Tests
end

/-! # Proofs: the scope of the machine (spec/00_scope.md)

The OPEN parameters (R9), one access or wait of the machine (R11), and the invariant along every run (R5, R30). -/

namespace Sys2Proof.Machine

/-! ## The OPEN parameters (R9) -/

/-- The registers in the order of R9's list. -/
def regsInOrder : List Reg :=
  [.dsiCtl, .lpTx, .dsiLaneCtl, .dsiTickdiv, .dsiGpio, .hFrontPorch, .hBackPorch, .hActive, .hTotal, .vBackPorch,
   .vFrontPorch, .vActive, .vTotal, .timingCtl]

/-- A register stands in the list at its index. -/
theorem regsInOrder_index (r : Reg) : regsInOrder[r.index]? = some r := by
  cases r <;> rfl

theorem regIndex_lt (r : Reg) : r.index < 14 :=
  (List.getElem?_eq_some_iff.1 (regsInOrder_index r)).1

/-- The index tells the registers apart. -/
theorem regIndex_injective : Function.Injective Reg.index := by
  intro r q h
  have hrq : some r = some q := by rw [← regsInOrder_index r, h, regsInOrder_index q]
  exact Option.some.inj hrq

/-- The offsets of the registers are pairwise distinct (R9, D5). -/
theorem off_injective : Function.Injective Config.off := by
  intro r q h
  have hplace : BitVec.ofNat 30 r.index = BitVec.ofNat 30 q.index :=
    Config.offsetPlace.injective ((BitVec.append_left_inj _).1 h)
  have hr := regIndex_lt r
  have hq := regIndex_lt q
  apply regIndex_injective
  have := congrArg BitVec.toNat hplace
  simp only [BitVec.toNat_ofNat] at this
  omega

/-- A word-aligned place is a multiple of 4. -/
theorem extractLsb'_append_zero (p : BitVec 30) : (p ++ 0#2 : Word).extractLsb' 0 2 = 0 :=
  BitVec.extractLsb'_append_eq_right

/-- `LP_SEND_MASK` is one-hot and not bit 0 (R9, D7). -/
theorem lpSendMask_oneHot : ∃ k, 1 ≤ k ∧ k < 32 ∧ Config.lpSendMask = 1#32 <<< k :=
  ⟨Config.lpSendPlace.val + 1, by omega, by omega, rfl⟩

/-- The low byte of `LANE_ENC` is zero (R9, D8). -/
theorem laneEnc_lowByte (n : Byte) : (Config.laneEnc n).extractLsb' 0 8 = 0 := by
  have hmask : (0xFFFFFF00 : Word).extractLsb' 0 8 = 0#8 := by decide
  simp only [Config.laneEnc, BitVec.extractLsb'_and, hmask, BitVec.and_zero, BitVec.zero_and]
  rfl

/-- `LANE_ENC` does not set the low-power-send bit (R9, D7). -/
theorem laneEnc_and_lpSendMask (n : Byte) : Config.laneEnc n &&& Config.lpSendMask = 0 := by
  rw [Config.laneEnc, BitVec.and_assoc, BitVec.not_and_self]
  exact BitVec.and_zero

/-- Settles O15: each OPEN parameter of R9 meets its constraint by the way it is built from an opaque value. -/
theorem parametersMeetTheirConstraints : Obligations.ParametersMeetTheirConstraints := by
  refine ⟨fun r q hne h => hne (off_injective h), fun r => extractLsb'_append_zero _, extractLsb'_append_zero _,
    readyMask_ne_zero, lpSendMask_oneHot, fun n => ⟨laneEnc_lowByte n, laneEnc_and_lpSendMask n⟩, ?_⟩
  split
  · trivial
  · next n h => exact hsTimeout_pos h

/-! ## One access (R11, R58) -/

/-- Settles O31: the PORT's step and the CONTROLLER's, which sets the register and no other. -/
theorem aWriteReachesExactlyItsRegister : Obligations.AWriteReachesExactlyItsRegister := by
  intro s r v pa hrst hport hanswer
  exact ⟨_, runs_write_ok hrst hport hanswer, rfl, fun q => CtrlRegs.get_set s.ctrl r q v, rfl⟩

/-- Settles O32: the PORT's step and the CONTROLLER's, which takes the next draw. -/
theorem aReadReturnsTheDraw : Obligations.AReadReturnsTheDraw := by
  intro s v pa rd hrst hport hanswer hdraw
  exact runs_read_ok hrst hport hanswer hdraw

/-! ## One wait (R239) -/

/-- The TIMER's first step of a wait takes the number of its steps from the given answers (R239, R242). -/
theorem timerStep_chooses {s : State} {d : DelayTag} {n : Nat} {tw : List Nat} (ht : s.timer = some ⟨d, none⟩)
    (ha : s.timerWaits = n :: tw) : timerStep s = tickTimer d n { s with timerWaits := tw } := by
  simp only [timerStep, ht, nextTimerWait, ha]

/-- A wait with `m` steps left to go on is still running after `k ≤ m` steps (R239). -/
theorem runs_ticks_waiting {d : DelayTag} {k m : Nat} {s : State} (hk : k ≤ m) (hr : s.rst = false)
    (hp : s.port = .idle) (ht : s.timer = some ⟨d, some m⟩) :
    ∃ t, Runs k s t ∧ t.timer = some ⟨d, some (m - k)⟩ := by
  induction k generalizing m s with
  | zero => exact ⟨s, runs_zero s, ht⟩
  | succ k ih =>
    obtain ⟨m, rfl⟩ : ∃ n, m = n + 1 := ⟨m - 1, by omega⟩
    have hstep : step s = .next { s with timer := some ⟨d, some m⟩ } := by
      rw [step_of_timer hr hp ht, timerStep_counts ht, tickTimer]
    obtain ⟨t, hrun, htimer⟩ := ih (s := { s with timer := some ⟨d, some m⟩ }) (Nat.le_of_succ_le_succ hk) hr hp rfl
    exact ⟨t, runs_succ hstep hrun, by rw [htimer, Nat.add_sub_add_right]⟩

/-- A wait whose number of steps `n` the TIMER has yet to take is running after every `k ≤ n` steps (R239). -/
theorem runs_delay_waiting {s : State} {d : DelayTag} {n k : Nat} {tw : List Nat} (hr : s.rst = false)
    (hp : s.port = .idle) (ht : s.timer = some ⟨d, none⟩) (ha : s.timerWaits = n :: tw) (hk : k ≤ n) :
    ∃ t w, Runs k s t ∧ t.timer = some w ∧ w.tag = d := by
  cases k with
  | zero => exact ⟨s, _, runs_zero s, ht, rfl⟩
  | succ k =>
    obtain ⟨n, rfl⟩ : ∃ m, n = m + 1 := ⟨n - 1, by omega⟩
    have hstep : step s = .next { s with timer := some ⟨d, some n⟩, timerWaits := tw } := by
      rw [step_of_timer hr hp ht, timerStep_chooses ht ha, tickTimer]
    obtain ⟨t, hrun, htimer⟩ := runs_ticks_waiting (s := { s with timer := some ⟨d, some n⟩, timerWaits := tw })
      (Nat.le_of_succ_le_succ hk) hr hp rfl
    exact ⟨t, _, runs_succ hstep hrun, htimer, rfl⟩

/-- Settles O37: the completion after `n + 1` steps, and the wait running after each of the first `n`. -/
theorem aWaitEndsWhenTheTimerSays : Obligations.AWaitEndsWhenTheTimerSays := by
  intro s d n tw hrst hport htimer hwaits
  exact ⟨runs_delay_ok hrst hport htimer hwaits, fun k hk => runs_delay_waiting hrst hport htimer hwaits hk⟩

/-! ## The programs: every line that does not end the command is followed by a line -/

/-- The line ends the command: it completes it or raises an error. -/
def Line.isLast : Line → Bool
  | .complete _ => true
  | .raise _ => true
  | .checkLanes _ => false
  | .checkLength _ => false
  | .setShadow _ => false
  | .orShadow _ => false
  | .writeShadow => false
  | .write _ _ => false
  | .delay _ => false
  | .send _ => false

/-- The line sends no empty list of bytes, so that `upc` may stand at its first byte. -/
def Line.hasStart : Line → Bool
  | .send bytes => !bytes.isEmpty
  | .complete _ => true
  | .raise _ => true
  | .checkLanes _ => true
  | .checkLength _ => true
  | .setShadow _ => true
  | .orShadow _ => true
  | .writeShadow => true
  | .write _ _ => true
  | .delay _ => true

/-- The program can be run from its first line to one that ends the command, and `upc` stays inside it. -/
structure ProgramCloses (prog : List ProgLine) : Prop where
  starts : prog.all (·.op.hasStart) = true
  ends : prog.getLast?.any (·.op.isLast) = true

/-- Every instruction's program closes (R30, R151). -/
theorem programOf_closes (i : Instr) (c : Cur) : ProgramCloses (programOf i c) := by
  cases i
  case crc16 =>
    constructor <;> simp only [programOf, crc16Program] <;> split <;> rfl
  all_goals exact ⟨rfl, rfl⟩

/-- The start of a line of a program that closes is a position of the program. -/
theorem ProgramCloses.upcIn_start {prog : List ProgLine} (h : ProgramCloses prog) {k : Nat} (hk : k < prog.length) :
    UpcIn prog ⟨k, 0, .setSave⟩ := by
  have hstart : prog[k].op.hasStart = true := List.all_eq_true.1 h.starts _ (List.getElem_mem hk)
  simp only [UpcIn, List.getElem?_eq_getElem hk]
  cases hop : prog[k].op with
  | send bytes =>
    rw [hop] at hstart
    exact List.length_pos_iff.2 (by simpa [Line.hasStart] using hstart)
  | checkLanes _ | checkLength _ | setShadow _ | orShadow _ | writeShadow | write _ _ | delay _ | complete _ | raise _ =>
    simp

/-- A program that closes has a first line. -/
theorem ProgramCloses.upcIn_first {prog : List ProgLine} (h : ProgramCloses prog) : UpcIn prog Upc.first := by
  refine h.upcIn_start ?_
  cases prog with
  | nil => exact absurd h.ends (by decide)
  | cons l prog => exact Nat.succ_pos _

/-- A line that does not end the command is followed by another line. -/
theorem ProgramCloses.upcIn_next {prog : List ProgLine} (h : ProgramCloses prog) {k : Nat} {l : ProgLine}
    (hl : prog[k]? = some l) (hlast : l.op.isLast = false) : UpcIn prog ⟨k + 1, 0, .setSave⟩ := by
  refine h.upcIn_start ?_
  obtain ⟨hk, -⟩ := List.getElem?_eq_some_iff.1 hl
  by_contra hge
  have hlastLine : prog.getLast? = some l := by
    rw [List.getLast?_eq_getElem?, show prog.length - 1 = k by omega, hl]
  have := h.ends
  rw [hlastLine] at this
  simp [hlast] at this

/-- At a line that sends bytes `upc` names one of the bytes. -/
theorem upcIn_send {prog : List ProgLine} {n i : Nat} {p : HsLine} {l : ProgLine} {bytes : List Byte}
    (hl : prog[n]? = some l) (hop : l.op = .send bytes) : UpcIn prog ⟨n, i, p⟩ ↔ i < bytes.length := by
  simp only [UpcIn, hl, hop]

/-- Only a line that sends bytes has handshake lines: at every other line `upc` stands at its start. -/
theorem UpcIn.hs_eq_setSave {prog : List ProgLine} {u : Upc} {l : ProgLine} (h : UpcIn prog u)
    (hl : prog[u.line]? = some l) (hop : ∀ bytes, l.op ≠ .send bytes) : u.hs = .setSave := by
  simp only [UpcIn, hl] at h
  cases hl' : l.op with
  | send bytes => exact absurd hl' (hop bytes)
  | checkLanes _ | checkLength _ | setShadow _ | orShadow _ | writeShadow | write _ _ | delay _ | complete _ | raise _ =>
    rw [hl'] at h
    exact h.2

/-- A position of a program names one of its lines. -/
theorem UpcIn.exists_line {prog : List ProgLine} {u : Upc} (h : UpcIn prog u) : ∃ l, prog[u.line]? = some l := by
  cases hl : prog[u.line]? with
  | none => simp only [UpcIn, hl] at h
  | some l => exact ⟨l, rfl⟩

/-! ## Ways to a state that meets the invariant -/

/-- In IDLE the invariant says only that nothing is outstanding, that `ERR` is a code, and what `RST` has done. -/
theorem Inv.of_idle {s : State} (hreset : s.rst = true → AtReset s) (herr : s.err.toNat ≤ 5) (hst : s.st = .idle)
    (hfree : CoreFree s) : Inv s where
  atReset := hreset
  errCode := herr
  idleQuiet _ := hfree
  execClear hexec := by simp [hst] at hexec
  upcIn hexec := by simp [hst] at hexec
  oneOutstanding _ := hfree.1
  pollInPlace hexec := by simp [hst] at hexec
  pollIssued hexec := by simp [hst] at hexec
  payload hexec := by simp [hst] at hexec

/-- A state with the reset values and nothing outstanding meets the invariant, whether `RST` is asserted or not. -/
theorem Inv.of_atReset {s : State} (h : AtReset s) (hfree : CoreFree s) : Inv s :=
  .of_idle (fun _ => h) (by rw [h.err]; decide) h.st hfree

/-- The state after reset meets the invariant (R230). -/
theorem inv_reset : Inv State.reset :=
  .of_atReset ⟨rfl, rfl, rfl, rfl, rfl, rfl, rfl⟩ ⟨rfl, rfl⟩

/-- What every step of a running command but its last leaves as it is. -/
structure KeepsCommand (s t : State) : Prop where
  rst : t.rst = s.rst
  st : t.st = s.st
  cur : t.cur = s.cur
  isDone : t.isDone = s.isDone
  err : t.err = s.err

/-- While a command runs, a step that keeps it keeps the invariant when `upc` stays in the program, at most one access or
wait is outstanding, and a poll is outstanding just where its answer is tested. -/
theorem Inv.of_keepsCommand {s t : State} (h : Inv s) (hrst : s.rst = false) (hst : s.st = .exec)
    (hk : KeepsCommand s t) (hupc : UpcIn (programOf s.cur.instr s.cur) t.upc) (hone : t.timer ≠ none → t.port = .idle)
    (hpoll : t.port.isPoll = true → t.upc.hs.isTest = true)
    (htest : t.upc.hs.isTest = true → t.port.isPoll = true ∨ t.port.isFailed = true) : Inv t where
  atReset hr := by simp [hk.rst, hrst] at hr
  errCode := hk.err ▸ h.errCode
  idleQuiet hi := by simp [hk.st, hst] at hi
  execClear _ := by rw [hk.isDone, hk.err]; exact h.execClear hst
  upcIn _ := by rw [hk.cur]; exact hupc
  oneOutstanding := hone
  pollInPlace _ := hpoll
  pollIssued _ := htest
  payload _ := by rw [hk.cur]; exact h.payload hst

/-- The code of an error kind is one of R200. -/
theorem errCode_le (k : ErrKind) : (errCode k).toNat ≤ 5 := by
  cases k <;> decide

/-- An abort with no wait running ends in a state that meets the invariant (R203). -/
theorem inv_abort {s : State} (k : ErrKind) (hrst : s.rst = false) (ht : s.timer = none) : Inv (abort k s) :=
  .of_idle (by simp [hrst]) (errCode_le k) rfl ⟨rfl, ht⟩

/-- The end of a command with nothing outstanding keeps the invariant (R30). -/
theorem inv_finish {s : State} (h : Inv s) (r : Option Half) (hrst : s.rst = false) (hfree : CoreFree s) :
    Inv (finish r s) :=
  .of_idle (by simp [hrst]) h.errCode rfl hfree

/-- The latched payload has `PLEN` bytes when `PLEN` is at most 255 (R70). -/
theorem length_latchedPayload {plen : Half} (buf : List Byte) (h : plen.toNat ≤ 255) :
    (latchedPayload plen buf).length = plen.toNat := by
  simp [latchedPayload, Config.payloadMax, h]

/-- Acceptance in IDLE keeps the invariant (R70). -/
theorem inv_accept {s : State} (h : Inv s) (hrst : s.rst = false) (hst : s.st = .idle) : Inv (accept s) := by
  have hfree : CoreFree (accept s) := h.idleQuiet hst
  exact {
    atReset := fun hr => by simp [accept, hrst] at hr
    errCode := Nat.zero_le 5
    idleQuiet := nofun
    execClear := fun _ => ⟨rfl, rfl⟩
    upcIn := fun _ => (programOf_closes _ _).upcIn_first
    oneOutstanding := fun _ => hfree.1
    pollInPlace := fun _ hp => by simp [hfree.1, PortState.isPoll] at hp
    pollIssued := nofun
    payload := fun _ => length_latchedPayload s.hostIn.payload }

/-- The HOST's step in IDLE keeps the invariant (R70). -/
theorem inv_hostStep {s : State} (h : Inv s) (hrst : s.rst = false) (hst : s.st = .idle) : Inv (hostStep s) := by
  rcases hostStep_cases s with e | ⟨c, q, -, e⟩ <;> rw [e]
  · exact h
  · exact .of_idle (by simp [hrst]) h.errCode hst (h.idleQuiet hst)

/-! ## The CORE's lines keep the invariant -/

/-- No wait runs when the CORE runs a line. -/
theorem timer_eq_none_of_not_waits {s : State} (hw : coreWaits s = false) : s.timer = none :=
  (coreWaits_eq_false.1 hw).1

/-- A line that does not test a poll runs with nothing outstanding. -/
theorem Inv.coreFree {s : State} (h : Inv s) (hst : s.st = .exec) (hw : coreWaits s = false)
    (hf : ∀ a, s.port ≠ .failed a) (htest : s.upc.hs.isTest = false) : CoreFree s := by
  obtain ⟨ht, hreq, hctrl⟩ := coreWaits_eq_false.1 hw
  refine ⟨?_, ht⟩
  cases hp : s.port with
  | idle => rfl
  | req a => exact absurd hp (hreq a)
  | atCtrl a => exact absurd hp (hctrl a)
  | failed a => exact absurd hp (hf a)
  | got v =>
    have := h.pollInPlace hst (by rw [hp]; rfl)
    simp [htest] at this

/-- A line goes on to the next line: the invariant is kept when no poll is outstanding then. -/
theorem inv_nextLine {s : State} (h : Inv s) (hrst : s.rst = false) (hst : s.st = .exec) {l : ProgLine}
    (hl : (programOf s.cur.instr s.cur)[s.upc.line]? = some l) (hlast : l.op.isLast = false) (d : Word) (q : PortState)
    (w : Option Wait) (hone : w ≠ none → q = .idle) (hpoll : q.isPoll = false) :
    Inv (nextLine { s with dsiCtl := d, port := q, timer := w }) :=
  h.of_keepsCommand hrst hst ⟨rfl, rfl, rfl, rfl, rfl⟩ ((programOf_closes _ _).upcIn_next hl hlast) hone
    (by simp [hpoll]) (by simp [HsLine.isTest])

/-- The handshake goes on with line `p` of the same byte: the invariant is kept when a poll is outstanding just where `p`
tests it. -/
theorem inv_gotoHs {s : State} (h : Inv s) (hrst : s.rst = false) (hst : s.st = .exec) (ht : s.timer = none)
    {l : ProgLine} {bytes : List Byte} (hl : (programOf s.cur.instr s.cur)[s.upc.line]? = some l)
    (hop : l.op = .send bytes) {p : HsLine} {d v : Word} {k : Nat} {q : PortState} (hpoll : q.isPoll = p.isTest) :
    Inv (gotoHs p { s with dsiCtl := d, hsSaved := v, pollN := k, port := q }) :=
  h.of_keepsCommand hrst hst ⟨rfl, rfl, rfl, rfl, rfl⟩ ((upcIn_send hl hop).2 ((upcIn_send hl hop).1 (h.upcIn hst)))
    (by simp [ht]) (by simp [hpoll]) (by simp [hpoll]; exact .inl)

/-- A byte's RESTORE goes on with the next byte or the next line, its write outstanding (R126). -/
theorem inv_nextByte {s : State} (h : Inv s) (hrst : s.rst = false) (hst : s.st = .exec) (ht : s.timer = none)
    {l : ProgLine} {bytes : List Byte} (hl : (programOf s.cur.instr s.cur)[s.upc.line]? = some l)
    (hop : l.op = .send bytes) (v : Word) : Inv (nextByte bytes.length (issue (.write .dsiCtl v) s)) := by
  rcases nextByte_cases bytes.length (issue (.write .dsiCtl v) s) with ⟨hlt, e⟩ | ⟨-, e⟩ <;> rw [e]
  · exact h.of_keepsCommand hrst hst ⟨rfl, rfl, rfl, rfl, rfl⟩ ((upcIn_send hl hop).2 hlt) (fun hne => absurd ht hne)
      nofun nofun
  · exact inv_nextLine h hrst hst hl (by rw [hop]; rfl) s.dsiCtl _ s.timer (fun hne => absurd ht hne) rfl

/-- A line of a handshake keeps the invariant (R121, R122). -/
theorem inv_sendLine {s t : State} (h : Inv s) (hrst : s.rst = false) (hst : s.st = .exec) (hw : coreWaits s = false)
    (hf : ∀ a, s.port ≠ .failed a) {l : ProgLine} {bytes : List Byte}
    (hl : (programOf s.cur.instr s.cur)[s.upc.line]? = some l) (hop : l.op = .send bytes)
    (hstep : sendLine bytes s = .next t) : Inv t := by
  have ht : s.timer = none := (coreWaits_eq_false.1 hw).1
  have hidle {p : HsLine} (hp : s.upc.hs = p) (htest : p.isTest = false) : s.port.isPoll = false := by
    rw [(h.coreFree hst hw hf (hp ▸ htest)).1]; rfl
  have hgo {p : HsLine} {d v : Word} {k : Nat} {q : PortState} (hpoll : q.isPoll = p.isTest) :
      Inv (gotoHs p { s with dsiCtl := d, hsSaved := v, pollN := k, port := q }) :=
    inv_gotoHs h hrst hst ht hl hop hpoll
  obtain ⟨b, -, hline⟩ := sendLine_next hstep
  rcases hsLine_next_cases hline with ⟨hp, rfl⟩ | ⟨hp, rfl⟩ | ⟨-, rfl⟩ | ⟨hp, rfl⟩ | ⟨-, rfl⟩ |
    ⟨-, v, -, ⟨-, rfl⟩ | ⟨-, rfl⟩⟩ | ⟨-, -, rfl⟩ | ⟨hp, -, rfl⟩ | ⟨-, rfl⟩ | ⟨hp, rfl⟩ | ⟨-, rfl⟩ |
    ⟨-, v, -, ⟨-, rfl⟩ | ⟨-, rfl⟩⟩ | ⟨-, -, rfl⟩ | ⟨hp, -, rfl⟩ | ⟨hp, rfl⟩ | ⟨-, rfl⟩
  · exact hgo (hidle hp rfl)
  · exact hgo (hidle hp rfl)
  · exact hgo rfl
  · exact hgo (hidle hp rfl)
  · exact hgo rfl
  · exact hgo rfl
  · exact hgo rfl
  · exact inv_abort _ hrst ht
  · exact hgo (hidle hp rfl)
  · exact hgo rfl
  · exact hgo (hidle hp rfl)
  · exact hgo rfl
  · exact hgo rfl
  · exact hgo rfl
  · exact inv_abort _ hrst ht
  · exact hgo (hidle hp rfl)
  · exact hgo (hidle hp rfl)
  · exact inv_nextByte h hrst hst ht hl hop _

/-- A line that sends no bytes keeps the invariant (R30). -/
theorem inv_plainLine {s t : State} (h : Inv s) (hrst : s.rst = false) (hst : s.st = .exec) (hfree : CoreFree s)
    {l : ProgLine} (hl : (programOf s.cur.instr s.cur)[s.upc.line]? = some l) (hop : ∀ bytes, l.op ≠ .send bytes)
    (hstep : runLine l.op s = .next t) : Inv t := by
  obtain ⟨hport, htimer⟩ := hfree
  have hnext (hlast : l.op.isLast = false) (d : Word) : Inv (nextLine { s with dsiCtl := d }) :=
    inv_nextLine h hrst hst hl hlast d s.port s.timer (by simp [htimer]) (by rw [hport]; rfl)
  have hwrite (hlast : l.op.isLast = false) (r : Reg) (v : Word) : Inv (nextLine (issue (.write r v) s)) :=
    inv_nextLine h hrst hst hl hlast s.dsiCtl _ s.timer (by simp [htimer]) rfl
  have hdelay (hlast : l.op.isLast = false) (d : DelayTag) : Inv (nextLine (startTimer d s)) :=
    inv_nextLine h hrst hst hl hlast s.dsiCtl s.port (some ⟨d, none⟩) (fun _ => hport) (by rw [hport]; rfl)
  cases hl' : l.op <;> rw [hl'] at hstep hnext hwrite hdelay
  case send bytes => exact absurd hl' (hop bytes)
  all_goals obtain rfl := Host.Outcome.next.inj hstep
  case checkLanes n =>
    split
    · exact hnext rfl s.dsiCtl
    · exact inv_abort _ hrst htimer
  case checkLength n =>
    split
    · exact hnext rfl s.dsiCtl
    · exact inv_abort _ hrst htimer
  case setShadow v => exact hnext rfl v
  case orShadow m => exact hnext rfl _
  case writeShadow => exact hwrite rfl _ _
  case write r v => exact hwrite rfl r v
  case delay d => exact hdelay rfl d
  case complete r => exact inv_finish h r hrst ⟨hport, htimer⟩
  case raise k => exact inv_abort k hrst htimer

/-- A line of a program keeps the invariant (R30). -/
theorem inv_runLine {s t : State} (h : Inv s) (hrst : s.rst = false) (hst : s.st = .exec) (hw : coreWaits s = false)
    (hf : ∀ a, s.port ≠ .failed a) {l : ProgLine} (hl : (programOf s.cur.instr s.cur)[s.upc.line]? = some l)
    (hstep : runLine l.op s = .next t) : Inv t := by
  by_cases hsend : ∃ bytes, l.op = .send bytes
  · obtain ⟨bytes, hop⟩ := hsend
    rw [hop] at hstep
    exact inv_sendLine h hrst hst hw hf hl hop hstep
  · have hop : ∀ bytes, l.op ≠ .send bytes := not_exists.1 hsend
    have htest : s.upc.hs.isTest = false := by rw [(h.upcIn hst).hs_eq_setSave hl hop]; rfl
    exact inv_plainLine h hrst hst (h.coreFree hst hw hf htest) hl hop hstep

/-! ## Every step keeps the invariant -/

/-- A command runs while an access or a wait is outstanding (R218). -/
theorem Inv.exec_of_not_coreFree {s : State} (h : Inv s) (hfree : ¬ CoreFree s) : s.st = .exec := by
  cases hst : s.st with
  | exec => rfl
  | idle => exact absurd (h.idleQuiet hst) hfree

/-- No wait runs while the PORT is not idle (R63). -/
theorem Inv.timer_eq_none {s : State} (h : Inv s) (hport : s.port ≠ .idle) : s.timer = none := by
  by_contra hne
  exact hport (h.oneOutstanding hne)

/-- A step of the PORT or the CONTROLLER keeps the invariant: a poll stays outstanding until it has failed, and no other
access becomes one (R11). -/
theorem inv_portChange {s : State} (h : Inv s) (hrst : s.rst = false) (hport : s.port ≠ .idle) (q : PortState)
    (c : CtrlRegs) (pa : List Bool) (rd : List Word) (n : Nat) (tr : List Event)
    (hpoll : q.isPoll = true → s.port.isPoll = true)
    (htest : s.port.isPoll = true ∨ s.port.isFailed = true → q.isPoll = true ∨ q.isFailed = true) :
    Inv { s with port := q, ctrl := c, portAnswers := pa, readDraws := rd, drawN := n, trace := tr } := by
  have hst := h.exec_of_not_coreFree (fun hf => hport hf.1)
  exact h.of_keepsCommand hrst hst ⟨rfl, rfl, rfl, rfl, rfl⟩ (h.upcIn hst) (fun hne => absurd (h.timer_eq_none hport) hne)
    (fun hq => h.pollInPlace hst (hpoll hq)) (fun hu => htest (h.pollIssued hst hu))

/-- A step of the TIMER keeps the invariant: the PORT is idle while a wait runs (R63, R239). -/
theorem inv_timerChange {s : State} (h : Inv s) (hrst : s.rst = false) (htimer : s.timer ≠ none) (w : Option Wait)
    (tw : List Nat) (n : Nat) (tr : List Event) :
    Inv { s with timer := w, timerWaits := tw, drawN := n, trace := tr } := by
  have hst := h.exec_of_not_coreFree (fun hf => htimer hf.2)
  exact h.of_keepsCommand hrst hst ⟨rfl, rfl, rfl, rfl, rfl⟩ (h.upcIn hst) (fun _ => h.oneOutstanding htimer)
    (h.pollInPlace hst) (h.pollIssued hst)

/-- Every step keeps the invariant, whichever agent's it is. -/
theorem inv_step {s t : State} (h : Inv s) (hstep : step s = .next t) : Inv t := by
  rcases step_next_effects hstep with ⟨-, c, n, rfl⟩ | ⟨hrst, ⟨a, hp, pa, n, rfl⟩ | ⟨a, hp, pa, n, rfl⟩ |
    ⟨r, v, hp, rfl⟩ | ⟨hp, v, rd, n, rfl⟩ | ⟨w, ht, -, -, tw, n, rfl⟩ | ⟨w, ht, -, -, k, tw, n, rfl⟩ |
    ⟨hw, -, -, rfl⟩ | ⟨hw, hst, hf, l, hl, hline⟩ | ⟨-, hst, -, rfl⟩ | ⟨-, hst, -, rfl⟩⟩
  case inl => exact .of_atReset ⟨rfl, rfl, rfl, rfl, rfl, rfl, rfl⟩ ⟨rfl, rfl⟩
  · exact inv_portChange h hrst (by simp [hp]) _ _ _ _ _ _ (by rw [hp]; cases a <;> exact id)
      (by rw [hp]; cases a <;> exact id)
  · exact inv_portChange h hrst (by simp [hp]) _ _ _ _ _ _ nofun (fun _ => .inr rfl)
  · exact inv_portChange h hrst (by simp [hp]) _ _ _ _ _ _ nofun (by rw [hp]; nofun)
  · exact inv_portChange h hrst (by simp [hp]) _ _ _ _ _ _ (fun _ => by rw [hp]; rfl) (fun _ => .inl rfl)
  · exact inv_timerChange h hrst (by simp [ht]) _ _ _ _
  · exact inv_timerChange h hrst (by simp [ht]) _ _ _ _
  · exact inv_abort _ hrst (coreWaits_eq_false.1 hw).1
  · exact inv_runLine h hrst hst hw hf hl hline
  · exact inv_accept h hrst hst
  · exact inv_hostStep h hrst hst

/-! ## Every move of the outside world keeps the invariant -/

/-- The HOST's inputs and the answers to come play no part in the invariant. -/
theorem inv_withInputs {s : State} (h : Inv s) (b : Bool) (c : HostCmd) (q : List HostCmd) (p : List Bool)
    (v : List Word) (d : List Nat) :
    Inv { s with cmdValid := b, hostIn := c, hostQueue := q, portAnswers := p, readDraws := v, timerWaits := d } where
  atReset hr :=
    have ⟨st, ready, busy, isDone, err, result, shadow⟩ := h.atReset hr
    ⟨st, ready, busy, isDone, err, result, shadow⟩
  errCode := h.errCode
  idleQuiet := h.idleQuiet
  execClear := h.execClear
  upcIn := h.upcIn
  oneOutstanding := h.oneOutstanding
  pollInPlace := h.pollInPlace
  pollIssued := h.pollIssued
  payload := h.payload

/-- The release of `RST` keeps the invariant, which then asks no reset values (R230). -/
theorem inv_releaseReset {s : State} (h : Inv s) : Inv (releaseReset s) where
  atReset := nofun
  errCode := h.errCode
  idleQuiet := h.idleQuiet
  execClear := h.execClear
  upcIn := h.upcIn
  oneOutstanding := h.oneOutstanding
  pollInPlace := h.pollInPlace
  pollIssued := h.pollIssued
  payload := h.payload

/-- The assertion of `RST` leads to the invariant from any state (R230). -/
theorem inv_raiseReset (s : State) : Inv (raiseReset s) := .of_atReset (raiseReset_atReset s) ⟨rfl, rfl⟩

/-- Every move of the outside world keeps the invariant. -/
theorem inv_outsideMove {s t : State} (h : Inv s) (hmove : OutsideMove s t) : Inv t := by
  cases hmove with
  | drive c held => exact inv_withInputs h _ c _ _ _ _
  | present c free => exact inv_withInputs h _ c _ _ _ _
  | raiseReset => exact inv_raiseReset s
  | releaseReset => exact inv_releaseReset h
  | queue q => exact inv_withInputs h _ _ q _ _ _
  | answers p v d => exact inv_withInputs h _ _ _ p v d

/-- Every state that steps and outside moves reach from a state with the invariant meets it. -/
theorem inv_reach {s t : State} (h : Inv s) (hreach : Reach s t) : Inv t := by
  induction hreach with
  | start => exact h
  | step _ hstep ih => exact inv_step ih hstep
  | outside _ hmove ih => exact inv_outsideMove ih hmove

/-! ## No step stops from a state that meets the invariant -/

/-- The ready test goes on with a value at hand (R122). -/
theorem pollTest_goes_on {s : State} {v : Word} (hp : s.port = .got v) (ready bound : HsLine) :
    ∃ t, pollTest ready bound s = .next t := by
  simp only [pollTest, hp]
  split <;> exact ⟨_, rfl⟩

/-- A line of the handshake goes on, the ready test with a value at hand (R121, R122). -/
theorem hsLine_goes_on {s : State} (htest : s.upc.hs.isTest = true → ∃ v, s.port = .got v) (b : Byte) (n : Nat) :
    ∃ t, hsLine b n s = .next t := by
  cases hp : s.upc.hs <;> simp only [hsLine, hp]
  case wait1Test | wait2Test =>
    obtain ⟨v, hv⟩ := htest (by rw [hp]; rfl)
    exact pollTest_goes_on hv _ _
  all_goals exact ⟨_, rfl⟩

/-- A line goes on when `upc` stands inside it and a ready test has a value at hand (R30). -/
theorem runLine_goes_on {prog : List ProgLine} {s : State} {l : ProgLine} (hl : prog[s.upc.line]? = some l)
    (hupc : UpcIn prog s.upc) (htest : s.upc.hs.isTest = true → ∃ v, s.port = .got v) :
    ∃ t, runLine l.op s = .next t := by
  cases hop : l.op
  case send bytes =>
    have hidx : s.upc.txIdx < bytes.length := (upcIn_send hl hop).1 hupc
    simp only [runLine, sendLine, List.getElem?_eq_getElem hidx]
    exact hsLine_goes_on htest _ _
  all_goals exact ⟨_, rfl⟩

/-- A running command's line goes on: at a ready test the CORE has the value it waited for (R63). -/
theorem exec_goes_on {s : State} (h : Inv s) (hst : s.st = .exec) (ht : s.timer = none)
    (hport : s.port = .idle ∨ ∃ v, s.port = .got v) : ∃ t, exec s.cur.instr s = .next t := by
  have hupc := h.upcIn hst
  have htest (hu : s.upc.hs.isTest = true) : ∃ v, s.port = .got v := by
    rcases hport with hp | hp
    · have := h.pollIssued hst hu
      simp [hp, PortState.isPoll, PortState.isFailed] at this
    · exact hp
  obtain ⟨l, hl⟩ := hupc.exists_line
  obtain ⟨t, hline⟩ := runLine_goes_on hl hupc htest
  refine ⟨t, ?_⟩
  rw [exec_eq_runProgram, ← hline]
  rcases hport with hp | ⟨v, hp⟩
  · exact runProgram_of_free ⟨hp, ht⟩ hl
  · exact runProgram_of_got hp ht hl

/-- From a state that meets the invariant no step faults and none is refused. -/
theorem step_goes_on {s : State} (h : Inv s) : ∃ t, step s = .next t := by
  cases hrst : s.rst with
  | true => exact ⟨_, step_of_rst hrst⟩
  | false =>
    cases ht : s.timer with
    | some w => exact ⟨_, step_of_timer hrst (h.oneOutstanding (by simp [ht])) ht⟩
    | none =>
      cases hst : s.st with
      | idle =>
        cases hv : s.cmdValid with
        | true => exact ⟨_, step_of_accept hrst (h.idleQuiet hst) hst hv⟩
        | false => exact ⟨_, step_of_host hrst (h.idleQuiet hst) hst hv⟩
      | exec =>
        cases hp : s.port with
        | req a => exact ⟨_, step_of_req hrst hp⟩
        | atCtrl a => exact ⟨_, step_of_atCtrl hrst hp⟩
        | idle => rw [step_of_core hrst ⟨hp, ht⟩ hst]; exact exec_goes_on h hst ht (.inl hp)
        | got v => rw [step_of_got hrst hp ht hst]; exact exec_goes_on h hst ht (.inr ⟨v, hp⟩)
        | failed a =>
          rw [step_of_failed hrst hp ht hst, exec_eq_runProgram]
          exact ⟨_, runProgram_of_failed hp ht⟩

/-- Settles O45: the invariant holds at reset, every step and every outside move keeps it, and it lets every step go on. -/
theorem reachableStatesGoOn : Obligations.ReachableStatesGoOn := by
  intro s hreach
  have hinv := inv_reach inv_reset hreach
  exact ⟨hinv, step_goes_on hinv⟩

end Sys2Proof.Machine

/-! # Proofs: the state (spec/10_state.md)

The end of a command (R32), the shadow and what a step does to it (R23, R24, R34), and whole runs of a handshake and of a
packet (R121, R126). -/

namespace Sys2Proof.Machine

/-! ## The invariant of the machine (R30, R63) -/

/-- Settles O43: each agent's step keeps the invariant. -/
theorem everyStepKeepsTheInvariant : Obligations.EveryStepKeepsTheInvariant :=
  fun _ _ => inv_step

/-- Settles O44: whichever agent's turn it is, the invariant lets its step go on. -/
theorem invariantStatesNeverStop : Obligations.InvariantStatesNeverStop :=
  fun _ => step_goes_on

/-- Settles O42: in IDLE, with nothing outstanding and an empty trace, the invariants ask nothing but the reset values. -/
theorem invariantsHoldAtReset : Obligations.InvariantsHoldAtReset := by
  refine ⟨inv_reset, ⟨BitVec.zero_and, nofun, nofun⟩, ⟨nofun, nofun, nofun⟩, nofun, ⟨?_, nofun, nofun, nofun, nofun⟩⟩
  intro pre e suf h
  exact absurd h (by simp [State.reset])

/-! ## The running CORE's step is its instruction's (R30, R70) -/

/-- Settles O27: the turn is the CORE's in each case, and acceptance leaves nothing outstanding. -/
theorem stepRunsTheDecodedCommand : Obligations.StepRunsTheDecodedCommand := by
  refine ⟨fun s hrst hst htimer hport => ?_, fun s hrst hfree hst hvalid => ?_⟩
  · rcases hport with hp | ⟨v, hp⟩ | ⟨a, hp⟩
    · exact step_of_core hrst ⟨hp, htimer⟩ hst
    · exact step_of_got hrst hp htimer hst
    · exact step_of_failed hrst hp htimer hst
  · exact ⟨accept s, step_of_accept hrst hfree hst hvalid, rfl, step_of_core (s := accept s) hrst hfree rfl⟩

/-! ## The end of a command (R32) -/

/-- At a line that ends the command the CORE returns its value (R30, R32). -/
theorem exec_complete (i : Instr) {s : State} {m : MicroStep} {r : Option Half} (hfree : CoreFree s)
    (hl : (programOf i s.cur)[s.upc.line]? = some ⟨m, .complete r⟩) : exec i s = .next (finish r s) := by
  rw [exec_eq_runProgram, runProgram_of_free hfree hl]
  rfl

/-- A running command's last line is a step to IDLE (R30, R32). -/
theorem step_complete {i : Instr} {s : State} {m : MicroStep} {r : Option Half} (hrst : s.rst = false)
    (hst : s.st = .exec) (hfree : CoreFree s) (hi : s.cur.instr = i)
    (hl : (programOf i s.cur)[s.upc.line]? = some ⟨m, .complete r⟩) : step s = .next (finish r s) := by
  rw [step_of_core hrst hfree hst, hi]
  exact exec_complete i hfree hl

/-- With a legal length the one line of CRC16 returns the CRC (R103, R201). -/
theorem crc16Program_of_length_le {c : Cur} (h : c.plen.toNat ≤ 255) :
    crc16Program c = [⟨.main, .complete (some (crc16 c.pl))⟩] := by
  have hrange : lengthInRange c.plen = true := decide_eq_true h
  rw [crc16Program, if_pos hrange]

/-- Settles O21: the line after the one that sends the bytes ends the command. -/
theorem pseudoAndItemsEndAsTheyShould : Obligations.PseudoAndItemsEndAsTheyShould := by
  intro i s bytes hfree hbytes hline
  exact exec_complete i hfree (by rw [hline]; exact programOf_afterSend hbytes)

/-- Settles O20: the last line of each program, that of a packet command by O21. -/
theorem resultOnCompletion : Obligations.ResultOnCompletion := by
  intro s hfree
  refine ⟨fun hfirst b => ?_, fun hfirst h => ?_, fun hfirst hlen => ?_, fun hline t w0 w1 => ?_,
    fun hline isDcs => ?_, fun hline => ?_⟩
  · exact exec_complete (.rev8 b) (m := .main) hfree (by rw [hfirst]; rfl)
  · exact exec_complete (.ecc6 h) (m := .main) hfree (by rw [hfirst]; rfl)
  · exact exec_complete .crc16 (m := .main) hfree (by rw [hfirst, programOf, crc16Program_of_length_le hlen]; rfl)
  · exact pseudoAndItemsEndAsTheyShould (.sendShort t w0 w1) s _ hfree rfl hline
  · exact pseudoAndItemsEndAsTheyShould (.sendLong isDcs) s _ hfree rfl hline
  · exact exec_complete .bringUp (m := .b11) hfree (by rw [hline]; rfl)

/-! ## The lines that write the shadow, and those that send bytes (R24, R151) -/

/-- What may stand at place `n` of the program of `i`: a line that changes the shadow only in B3, B4 and B7 of BRING_UP, no
write of DSI_CTL but that of the shadow, and a line that sends bytes only where `sendsAt` names one. -/
def Line.fitsAt (i : Instr) (c : Cur) (n : Nat) : Line → Bool
  | .setShadow _ => decide (i = .bringUp) && (n == 3 || n == 6)
  | .orShadow _ => decide (i = .bringUp) && n == 14
  | .write r _ => decide (r ≠ .dsiCtl)
  | .send _ => if i = .bringUp then (bringUpPacket n).isSome else n == sendLineOf i && (wireBytes i c).isSome
  | .checkLanes _ => true
  | .checkLength _ => true
  | .writeShadow => true
  | .delay _ => true
  | .complete _ => true
  | .raise _ => true

/-- Every line of every program fits its place. -/
theorem programOf_fits (i : Instr) (c : Cur) :
    (programOf i c).zipIdx.all (fun ln => ln.1.op.fitsAt i c ln.2) = true := by
  cases i
  case crc16 => simp only [programOf, crc16Program]; split <;> rfl
  all_goals rfl

/-- The line that stands at a place of a program fits there. -/
theorem fitsAt_of_line {i : Instr} {c : Cur} {n : Nat} {l : ProgLine} (hl : (programOf i c)[n]? = some l) :
    l.op.fitsAt i c n = true :=
  List.all_eq_true.1 (programOf_fits i c) (l, n) (List.mk_mem_zipIdx_iff_getElem?.2 hl)

/-- `dsi_ctl <- v` stands in BRING_UP only, at B3 and at B4 (R155, R156). -/
theorem setShadow_line {i : Instr} {c : Cur} {n : Nat} {l : ProgLine} {v : Word} (hl : (programOf i c)[n]? = some l)
    (hop : l.op = .setShadow v) :
    i = .bringUp ∧ (n = 3 ∧ v = 0 ∨ n = 6 ∧ v = Config.laneEnc c.cfg.numLanes) := by
  have hfits := fitsAt_of_line hl
  simp only [hop, Line.fitsAt, Bool.and_eq_true, Bool.or_eq_true, beq_iff_eq, decide_eq_true_eq] at hfits
  obtain ⟨rfl, rfl | rfl⟩ := hfits <;> cases hl <;> cases hop
  · exact ⟨rfl, .inl ⟨rfl, rfl⟩⟩
  · exact ⟨rfl, .inr ⟨rfl, rfl⟩⟩

/-- `dsi_ctl <- dsi_ctl | m` stands in BRING_UP only, at B7, with CLK_EN (R159). -/
theorem orShadow_line {i : Instr} {c : Cur} {n : Nat} {l : ProgLine} {m : Word} (hl : (programOf i c)[n]? = some l)
    (hop : l.op = .orShadow m) : i = .bringUp ∧ n = 14 ∧ m = Config.clkEn := by
  have hfits := fitsAt_of_line hl
  simp only [hop, Line.fitsAt, Bool.and_eq_true, beq_iff_eq, decide_eq_true_eq] at hfits
  obtain ⟨rfl, rfl⟩ := hfits
  cases hl
  cases hop
  exact ⟨rfl, rfl, rfl⟩

/-- No program writes DSI_CTL with a value of its own (R34). -/
theorem write_line_ne_dsiCtl {i : Instr} {c : Cur} {n : Nat} {l : ProgLine} {r : Reg} {v : Word}
    (hl : (programOf i c)[n]? = some l) (hop : l.op = .write r v) : r ≠ .dsiCtl := by
  have hfits := fitsAt_of_line hl
  simpa only [hop, Line.fitsAt, decide_eq_true_eq] using hfits

/-- Where a program sends bytes, `sendsAt` names some. -/
theorem sendsAt_of_send_line {s : State} {l : ProgLine} {bytes : List Byte}
    (hl : (programOf s.cur.instr s.cur)[s.upc.line]? = some l) (hop : l.op = .send bytes) :
    sendsAt s.cur.instr s ≠ none := by
  have hfits := fitsAt_of_line hl
  simp only [hop, Line.fitsAt] at hfits
  unfold sendsAt
  split at hfits <;> next hi => simpa [hi, Option.isSome_iff_ne_none] using hfits

/-- Where `sendsAt` names bytes, the program sends them. -/
theorem send_line_of_sendsAt {i : Instr} {s : State} {bytes : List Byte} (h : sendsAt i s = some bytes) :
    ∃ m, (programOf i s.cur)[s.upc.line]? = some ⟨m, .send bytes⟩ := by
  unfold sendsAt at h
  split at h
  · next hi => rw [hi]; exact bringUp_packetLine h
  · split at h
    · next hline => exact ⟨.main, by rw [hline]; exact programOf_sendLine h⟩
    · cases h

/-- The first line of BRING_UP is the check of the lane count (R152). -/
theorem bringUp_first_line (c : Cur) : (programOf .bringUp c)[0]? = some ⟨.b0, .checkLanes c.cfg.numLanes⟩ := rfl

/-! ## What a step does to the shadow and to `hs_saved` (R24, R121) -/

/-- What a line of LP_WRITE_BYTE that goes on with the same byte does to the two registers (R121). -/
inductive HandshakeMove (s t : State) : Prop where
  | save (before : s.upc.hs = .setSave) (after : t.upc.hs = .setShadow) (shadow : t.dsiCtl = s.dsiCtl)
      (saved : t.hsSaved = s.dsiCtl)
  | set (before : s.upc.hs = .setShadow) (after : t.upc.hs = .setWrite)
      (shadow : t.dsiCtl = s.dsiCtl ||| Config.lpSendMask) (saved : t.hsSaved = s.hsSaved)
  | stay (before : s.upc.hs.lpOpen = true) (after : t.upc.hs.lpOpen = true) (shadow : t.dsiCtl = s.dsiCtl)
      (saved : t.hsSaved = s.hsSaved)
  | restore (before : s.upc.hs = .restoreShadow) (after : t.upc.hs = .restoreWrite) (shadow : t.dsiCtl = s.hsSaved)
      (saved : t.hsSaved = s.hsSaved)

/-- What a line of BRING_UP that is to change the shadow gives it (R155, R156, R159). -/
inductive BringUpMove (s t : State) : Prop where
  | off (line : s.upc.line = 3) (shadow : t.dsiCtl = 0)
  | lanes (line : s.upc.line = 6) (shadow : t.dsiCtl = Config.laneEnc s.cur.cfg.numLanes)
  | clock (line : s.upc.line = 14) (shadow : t.dsiCtl = s.dsiCtl ||| Config.clkEn)

/-- What a step does to the shadow and to `hs_saved`, and where it leaves `upc`. -/
inductive ShadowMove (s t : State) : Prop where
  /-- `RST` (R230). -/
  | reset (rst : s.rst = true) (st : t.st = .idle) (shadow : t.dsiCtl = 0)
  /-- A step of another agent. -/
  | keep (st : t.st = s.st) (cur : t.cur = s.cur) (upc : t.upc = s.upc) (shadow : t.dsiCtl = s.dsiCtl)
      (saved : t.hsSaved = s.hsSaved)
  /-- Acceptance (R70). -/
  | start (upc : t.upc = Upc.first) (shadow : t.dsiCtl = s.dsiCtl)
  /-- The end of the command, or its abort (R32, R203). -/
  | stop (st : t.st = .idle) (shadow : t.dsiCtl = s.dsiCtl)
  /-- The start of a line or of a byte, past B0 only with a legal lane count (R152). -/
  | next (exec : s.st = .exec) (cur : t.cur = s.cur) (hs : t.upc.hs = .setSave) (shadow : t.dsiCtl = s.dsiCtl)
      (lanes : s.cur.instr = .bringUp → 0 < s.upc.line ∨ lanesInRange s.cur.cfg.numLanes = true)
  /-- One of the lines of B3, B4 and B7. -/
  | bringUp (exec : s.st = .exec) (instr : s.cur.instr = .bringUp) (cur : t.cur = s.cur) (hs : t.upc.hs = .setSave)
      (move : BringUpMove s t)
  /-- A line of a byte's handshake. -/
  | handshake (exec : s.st = .exec) (sends : sendsAt s.cur.instr s ≠ none) (cur : t.cur = s.cur)
      (line : t.upc.line = s.upc.line) (move : HandshakeMove s t)

/-- A line that runs past B0 may go on to the next. -/
theorem line_pos_of_ne_checkLanes {s : State} {l : ProgLine}
    (hl : (programOf s.cur.instr s.cur)[s.upc.line]? = some l) (hop : ∀ n, l.op ≠ .checkLanes n)
    (hi : s.cur.instr = .bringUp) : 0 < s.upc.line := by
  by_contra hpos
  have hzero : s.upc.line = 0 := Nat.eq_zero_of_not_pos hpos
  rw [hi, hzero, bringUp_first_line] at hl
  cases hl
  exact hop _ rfl

/-- What a line of the handshake does to the shadow (R121, R122). -/
theorem shadowMove_of_hsLine {s t : State} {l : ProgLine} {bytes : List Byte} {b : Byte} {n : Nat} (hst : s.st = .exec)
    (hl : (programOf s.cur.instr s.cur)[s.upc.line]? = some l) (hop : l.op = .send bytes)
    (hstep : hsLine b n s = .next t) : ShadowMove s t := by
  have hsends := sendsAt_of_send_line hl hop
  have hstay {p q : HsLine} (hp : s.upc.hs = p) (hopen : p.lpOpen = true) (hq : q.lpOpen = true) (k : Nat)
      (port : PortState) : ShadowMove s (gotoHs q { s with pollN := k, port := port }) :=
    .handshake hst hsends rfl rfl (.stay (hp ▸ hopen) hq rfl rfl)
  rcases hsLine_next_cases hstep with ⟨hp, rfl⟩ | ⟨hp, rfl⟩ | ⟨hp, rfl⟩ | ⟨hp, rfl⟩ | ⟨hp, rfl⟩ |
    ⟨hp, v, -, ⟨-, rfl⟩ | ⟨-, rfl⟩⟩ | ⟨-, -, rfl⟩ | ⟨hp, -, rfl⟩ | ⟨hp, rfl⟩ | ⟨hp, rfl⟩ | ⟨hp, rfl⟩ |
    ⟨hp, v, -, ⟨-, rfl⟩ | ⟨-, rfl⟩⟩ | ⟨-, -, rfl⟩ | ⟨hp, -, rfl⟩ | ⟨hp, rfl⟩ | ⟨-, rfl⟩
  · exact .handshake hst hsends rfl rfl (.save hp rfl rfl rfl)
  · exact .handshake hst hsends rfl rfl (.set hp rfl rfl rfl)
  · exact hstay hp rfl rfl _ _
  · exact hstay hp rfl rfl _ _
  · exact hstay hp rfl rfl _ _
  · exact hstay hp rfl rfl _ _
  · exact hstay hp rfl rfl _ _
  · exact .stop rfl rfl
  · exact hstay hp rfl rfl _ _
  · exact hstay hp rfl rfl _ _
  · exact hstay hp rfl rfl _ _
  · exact hstay hp rfl rfl _ _
  · exact hstay hp rfl rfl _ _
  · exact hstay hp rfl rfl _ _
  · exact .stop rfl rfl
  · exact hstay hp rfl rfl _ _
  · exact .handshake hst hsends rfl rfl (.restore hp rfl rfl rfl)
  · have hlanes (hi : s.cur.instr = .bringUp) : 0 < s.upc.line ∨ lanesInRange s.cur.cfg.numLanes = true :=
      .inl (line_pos_of_ne_checkLanes hl (by simp [hop]) hi)
    rcases nextByte_cases n (issue (.write .dsiCtl s.dsiCtl) s) with ⟨-, e⟩ | ⟨-, e⟩ <;> rw [e]
    · exact .next hst rfl rfl rfl hlanes
    · exact .next hst rfl rfl rfl hlanes

/-- What a line of a program does to the shadow (R24). -/
theorem shadowMove_of_runLine {s t : State} {l : ProgLine} (hst : s.st = .exec)
    (hl : (programOf s.cur.instr s.cur)[s.upc.line]? = some l) (hstep : runLine l.op s = .next t) :
    ShadowMove s t := by
  have hlanes (hop : ∀ n, l.op ≠ .checkLanes n) (hi : s.cur.instr = .bringUp) :
      0 < s.upc.line ∨ lanesInRange s.cur.cfg.numLanes = true := .inl (line_pos_of_ne_checkLanes hl hop hi)
  cases hop : l.op <;> rw [hop] at hstep hlanes
  case send bytes =>
    obtain ⟨b, -, hline⟩ := sendLine_next hstep
    exact shadowMove_of_hsLine hst hl hop hline
  all_goals obtain rfl := Host.Outcome.next.inj hstep
  case checkLanes n =>
    split
    · next hrange =>
      refine .next hst rfl rfl rfl fun hi => ?_
      by_cases hpos : 0 < s.upc.line
      · exact .inl hpos
      · rw [hi, Nat.eq_zero_of_not_pos hpos, bringUp_first_line] at hl
        cases hl
        cases hop
        exact .inr hrange
    · exact .stop rfl rfl
  case checkLength n =>
    split
    · exact .next hst rfl rfl rfl (hlanes nofun)
    · exact .stop rfl rfl
  case setShadow v =>
    obtain ⟨hi, ⟨hline, rfl⟩ | ⟨hline, rfl⟩⟩ := setShadow_line hl hop
    · exact .bringUp hst hi rfl rfl (.off hline rfl)
    · exact .bringUp hst hi rfl rfl (.lanes hline rfl)
  case orShadow m =>
    obtain ⟨hi, hline, rfl⟩ := orShadow_line hl hop
    exact .bringUp hst hi rfl rfl (.clock hline rfl)
  case writeShadow => exact .next hst rfl rfl rfl (hlanes nofun)
  case write r v => exact .next hst rfl rfl rfl (hlanes nofun)
  case delay d => exact .next hst rfl rfl rfl (hlanes nofun)
  case complete r => exact .stop rfl rfl
  case raise k => exact .stop rfl rfl

/-- What a step does to the shadow, whichever agent's it is. -/
theorem shadowMove_of_step {s t : State} (hstep : step s = .next t) : ShadowMove s t := by
  rcases step_next_effects hstep with ⟨hrst, c, n, rfl⟩ | ⟨-, ⟨a, -, pa, n, rfl⟩ | ⟨a, -, pa, n, rfl⟩ |
    ⟨r, v, -, rfl⟩ | ⟨-, v, rd, n, rfl⟩ | ⟨w, -, -, -, tw, n, rfl⟩ | ⟨w, -, -, -, k, tw, n, rfl⟩ |
    ⟨-, -, -, rfl⟩ | ⟨-, hst, -, l, hl, hline⟩ | ⟨-, -, -, rfl⟩ | ⟨-, -, -, rfl⟩⟩
  case inl => exact .reset hrst rfl rfl
  · exact .keep rfl rfl rfl rfl rfl
  · exact .keep rfl rfl rfl rfl rfl
  · exact .keep rfl rfl rfl rfl rfl
  · exact .keep rfl rfl rfl rfl rfl
  · exact .keep rfl rfl rfl rfl rfl
  · exact .keep rfl rfl rfl rfl rfl
  · exact .stop rfl rfl
  · exact shadowMove_of_runLine hst hl hline
  · exact .start rfl rfl
  · rcases hostStep_cases s with e | ⟨c, q, -, e⟩ <;> rw [e]
    · exact .keep rfl rfl rfl rfl rfl
    · exact .keep rfl rfl rfl rfl rfl

/-! ### Which lines write the shadow (R24) -/

/-- Of the outside world's moves only the assertion of `RST` changes the shadow (R230). -/
theorem outsideMove_shadow {s t : State} (hmove : OutsideMove s t) (hne : t.dsiCtl ≠ s.dsiCtl) :
    t = raiseReset s ∧ t.dsiCtl = 0 := by
  cases hmove with
  | raiseReset => exact ⟨rfl, rfl⟩
  | drive | present | releaseReset | queue | answers => exact absurd rfl hne

/-- Settles O49: every other way in which a step treats the shadow keeps it. -/
theorem onlyListedLinesWriteTheShadow : Obligations.OnlyListedLinesWriteTheShadow := by
  refine ⟨fun s t => outsideMove_shadow, fun s t hstep hne => ?_⟩
  cases shadowMove_of_step hstep with
  | reset rst _ shadow => exact .inl ⟨rst, shadow⟩
  | keep _ _ _ shadow | start _ shadow | stop _ shadow | next _ _ _ shadow => exact absurd shadow hne
  | bringUp exec instr _ _ move =>
    refine .inr (.inl ⟨exec, instr, ?_⟩)
    cases move with
    | off line shadow => exact .inl ⟨line, shadow⟩
    | lanes line shadow => exact .inr (.inl ⟨line, shadow⟩)
    | clock line shadow => exact .inr (.inr ⟨line, shadow⟩)
  | handshake exec sends _ _ move =>
    refine .inr (.inr ⟨exec, sends, ?_⟩)
    cases move with
    | save _ _ shadow | stay _ _ shadow => exact absurd shadow hne
    | set before _ shadow => exact .inl ⟨before, shadow⟩
    | restore before _ shadow => exact .inr ⟨before, shadow⟩

/-! ### The fields of the shadow (R23) -/

theorem onlyShadowFields_zero : OnlyShadowFields 0 := BitVec.zero_and

theorem onlyShadowFields_or {v w : Word} :
    OnlyShadowFields (v ||| w) ↔ OnlyShadowFields v ∧ OnlyShadowFields w := by
  unfold OnlyShadowFields
  rw [BitVec.and_or_distrib_right]
  exact BitVec.or_eq_zero_iff

/-- The word of all the shadow's fields sets no other bit. -/
theorem onlyShadowFields_all : OnlyShadowFields (Config.clkEn ||| laneBits ||| Config.lpSendMask) :=
  BitVec.and_not_self _

theorem onlyShadowFields_clkEn : OnlyShadowFields Config.clkEn :=
  (onlyShadowFields_or.1 (onlyShadowFields_or.1 onlyShadowFields_all).1).1

theorem onlyShadowFields_lpSendMask : OnlyShadowFields Config.lpSendMask :=
  (onlyShadowFields_or.1 onlyShadowFields_all).2

/-- A lane count in range is 1, 2, 3 or 4 (R152). -/
theorem eq_of_lanesInRange {n : Byte} (h : lanesInRange n = true) : n = 1 ∨ n = 2 ∨ n = 3 ∨ n = 4 := by
  simp only [lanesInRange, Bool.and_eq_true, decide_eq_true_eq] at h
  bv_omega

/-- `LANE_ENC` of a legal lane count sets the lane bits only (R23). -/
theorem onlyShadowFields_laneEnc {n : Byte} (h : lanesInRange n = true) : OnlyShadowFields (Config.laneEnc n) := by
  have hlanes : OnlyShadowFields laneBits := (onlyShadowFields_or.1 (onlyShadowFields_or.1 onlyShadowFields_all).1).2
  simp only [laneBits, onlyShadowFields_or] at hlanes
  obtain ⟨⟨⟨h1, h2⟩, h3⟩, h4⟩ := hlanes
  rcases eq_of_lanesInRange h with rfl | rfl | rfl | rfl
  · exact h1
  · exact h2
  · exact h3
  · exact h4

/-- The invariant gives a line past B0 its legal lane count, and so the value of B4 (R152, R156). -/
theorem ShadowInv.of_bringUpMove {s t : State} (h : ShadowInv s) (hexec : s.st = .exec)
    (hinstr : s.cur.instr = .bringUp) (hcur : t.cur = s.cur) (hhs : t.upc.hs = .setSave) (hmove : BringUpMove s t) :
    ShadowInv t := by
  have hpos : 0 < s.upc.line := by cases hmove <;> omega
  have hrange := h.lanes hexec hinstr hpos
  refine ⟨?_, fun _ hne => absurd hhs hne, fun _ _ _ => hcur ▸ hrange⟩
  cases hmove with
  | off _ shadow => rw [shadow]; exact onlyShadowFields_zero
  | lanes _ shadow => rw [shadow]; exact onlyShadowFields_laneEnc hrange
  | clock _ shadow => rw [shadow]; exact onlyShadowFields_or.2 ⟨h.shadow, onlyShadowFields_clkEn⟩

/-- A line of a handshake moves words between the two registers and sets LP_SEND only (R121). -/
theorem ShadowInv.of_handshakeMove {s t : State} (h : ShadowInv s) (hexec : s.st = .exec) (hcur : t.cur = s.cur)
    (hline : t.upc.line = s.upc.line) (hmove : HandshakeMove s t) : ShadowInv t := by
  have hsaved (hne : s.upc.hs ≠ .setSave) := h.saved hexec hne
  have hlanes : t.st = .exec → t.cur.instr = .bringUp → 0 < t.upc.line → lanesInRange t.cur.cfg.numLanes = true := by
    rw [hcur, hline]
    exact fun _ => h.lanes hexec
  cases hmove with
  | save _ _ shadow saved => exact ⟨shadow ▸ h.shadow, fun _ _ => saved ▸ h.shadow, hlanes⟩
  | set before _ shadow saved =>
    refine ⟨?_, fun _ _ => saved ▸ hsaved (by simp [before]), hlanes⟩
    rw [shadow]
    exact onlyShadowFields_or.2 ⟨h.shadow, onlyShadowFields_lpSendMask⟩
  | stay before _ shadow saved =>
    exact ⟨shadow ▸ h.shadow, fun _ _ => saved ▸ hsaved fun e => by simp [e, HsLine.lpOpen] at before, hlanes⟩
  | restore before _ shadow saved =>
    have hfields := hsaved (by simp [before])
    exact ⟨shadow ▸ hfields, fun _ _ => saved ▸ hfields, hlanes⟩

/-- Settles O46: by the ways in which a step treats the shadow. -/
theorem shadowSetsOnlyItsFields : Obligations.ShadowSetsOnlyItsFields := by
  intro s t h hstep
  cases shadowMove_of_step hstep with
  | reset _ st shadow => exact ⟨shadow ▸ onlyShadowFields_zero, by simp [st], by simp [st]⟩
  | keep st cur upc shadow saved =>
    refine ⟨shadow ▸ h.shadow, ?_, ?_⟩
    · rw [st, upc, saved]; exact h.saved
    · rw [st, cur, upc]; exact h.lanes
  | start upc shadow => exact ⟨shadow ▸ h.shadow, by simp [upc, Upc.first], by simp [upc, Upc.first]⟩
  | stop st shadow => exact ⟨shadow ▸ h.shadow, by simp [st], by simp [st]⟩
  | next exec cur hs shadow lanes =>
    refine ⟨shadow ▸ h.shadow, fun _ hne => absurd hs hne, fun _ hi _ => ?_⟩
    rw [cur] at hi ⊢
    exact (lanes hi).elim (h.lanes exec hi) id
  | bringUp exec instr cur hs move => exact h.of_bringUpMove exec instr cur hs move
  | handshake exec _ cur line move => exact h.of_handshakeMove exec cur line move

/-! ### The handshake's two registers (R34, R121) -/

/-- What a line of the handshake leaves is what the invariant asks at the next (R121). -/
theorem HandshakeInv.of_handshakeMove {s t : State} (h : HandshakeInv s) (hexec : s.st = .exec)
    (hmove : HandshakeMove s t) : HandshakeInv t := by
  cases hmove with
  | save _ after shadow saved =>
    exact ⟨fun _ _ => saved.trans shadow.symm, by simp [after, HsLine.lpOpen], by simp [after]⟩
  | set before after shadow saved =>
    refine ⟨by simp [after], fun _ _ => ?_, by simp [after]⟩
    rw [shadow, saved, h.saved hexec before]
  | stay before after shadow saved =>
    refine ⟨fun _ e => ?_, fun _ _ => ?_, fun _ e => ?_⟩
    · simp [e, HsLine.lpOpen] at after
    · rw [shadow, saved, h.opened hexec before]
    · simp [e, HsLine.lpOpen] at after
  | restore _ after shadow saved =>
    exact ⟨by simp [after], by simp [after, HsLine.lpOpen], fun _ _ => shadow.trans saved.symm⟩

/-- Outside a running command, and at SET's first line, the invariant asks nothing. -/
theorem HandshakeInv.of_quiet {t : State} (h : t.st = .idle ∨ t.upc.hs = .setSave) : HandshakeInv t := by
  rcases h with h | h
  · exact ⟨by simp [h], by simp [h], by simp [h]⟩
  · exact ⟨by simp [h], by simp [h, HsLine.lpOpen], by simp [h]⟩

/-- Settles O47: by the ways in which a step treats the two registers. -/
theorem handshakeKeepsTheSavedShadow : Obligations.HandshakeKeepsTheSavedShadow := by
  intro s t h hstep
  cases shadowMove_of_step hstep with
  | reset _ st | stop st => exact .of_quiet (.inl st)
  | start upc => exact .of_quiet (.inr (by rw [upc]; rfl))
  | next _ _ hs | bringUp _ _ _ hs => exact .of_quiet (.inr hs)
  | keep st _ upc shadow saved =>
    exact ⟨by rw [st, upc, shadow, saved]; exact h.saved, by rw [st, upc, shadow, saved]; exact h.opened,
      by rw [st, upc, shadow, saved]; exact h.restored⟩
  | handshake exec _ _ _ move => exact h.of_handshakeMove exec move

/-! ### An outstanding write of DSI_CTL carries the shadow (R34) -/

/-- The value of a write of DSI_CTL. -/
def Access.shadowWrite : Access → Option Word
  | .write r v => if r = .dsiCtl then some v else none
  | .readReady => none

theorem Access.shadowWrite_eq_some {a : Access} {v : Word} : a.shadowWrite = some v ↔ a = .write .dsiCtl v := by
  cases a <;> simp [Access.shadowWrite]

/-- The value of an outstanding write of DSI_CTL. -/
def PortState.shadowWrite : PortState → Option Word
  | .req a => a.shadowWrite
  | .atCtrl a => a.shadowWrite
  | .idle => none
  | .got _ => none
  | .failed _ => none

theorem PortState.shadowWrite_eq_some {p : PortState} {v : Word} :
    p.shadowWrite = some v ↔ p = .req (.write .dsiCtl v) ∨ p = .atCtrl (.write .dsiCtl v) := by
  cases p <;> simp [PortState.shadowWrite, Access.shadowWrite_eq_some]

theorem shadowWriteInv_iff (s : State) : ShadowWriteInv s ↔ ∀ v, s.port.shadowWrite = some v → v = s.dsiCtl := by
  simp only [ShadowWriteInv, PortState.shadowWrite_eq_some]

/-- No write is outstanding when the CORE runs. -/
theorem shadowWrite_of_not_waits {s : State} (hw : coreWaits s = false) : s.port.shadowWrite = none := by
  obtain ⟨-, hreq, hctrl⟩ := coreWaits_eq_false.1 hw
  exact Option.eq_none_iff_forall_ne_some.2 fun v hv =>
    (PortState.shadowWrite_eq_some.1 hv).elim (hreq _) (hctrl _)

/-- A line of the handshake leaves no write of DSI_CTL outstanding, or one of the shadow (R121). -/
theorem shadowWrite_of_hsLine {s t : State} {b : Byte} {n : Nat} (hs : s.port.shadowWrite = none)
    (hstep : hsLine b n s = .next t) : t.port.shadowWrite = none ∨ t.port.shadowWrite = some t.dsiCtl := by
  rcases hsLine_next_cases hstep with ⟨-, rfl⟩ | ⟨-, rfl⟩ | ⟨-, rfl⟩ | ⟨-, rfl⟩ | ⟨-, rfl⟩ |
    ⟨-, v, -, ⟨-, rfl⟩ | ⟨-, rfl⟩⟩ | ⟨-, -, rfl⟩ | ⟨-, -, rfl⟩ | ⟨-, rfl⟩ | ⟨-, rfl⟩ | ⟨-, rfl⟩ |
    ⟨-, v, -, ⟨-, rfl⟩ | ⟨-, rfl⟩⟩ | ⟨-, -, rfl⟩ | ⟨-, -, rfl⟩ | ⟨-, rfl⟩ | ⟨-, rfl⟩
  · exact .inl hs
  · exact .inl hs
  · exact .inr rfl
  · exact .inl hs
  · exact .inl rfl
  · exact .inl rfl
  · exact .inl rfl
  · exact .inl rfl
  · exact .inl hs
  · exact .inl rfl
  · exact .inl hs
  · exact .inl rfl
  · exact .inl rfl
  · exact .inl rfl
  · exact .inl rfl
  · exact .inl hs
  · exact .inl hs
  · rcases nextByte_cases n (issue (.write .dsiCtl s.dsiCtl) s) with ⟨-, e⟩ | ⟨-, e⟩ <;> rw [e]
    · exact .inr rfl
    · exact .inr rfl

/-- A line of a program leaves no write of DSI_CTL outstanding, or one of the shadow (R34). -/
theorem shadowWrite_of_runLine {i : Instr} {c : Cur} {s t : State} {l : ProgLine}
    (hl : (programOf i c)[s.upc.line]? = some l) (hs : s.port.shadowWrite = none)
    (hstep : runLine l.op s = .next t) : t.port.shadowWrite = none ∨ t.port.shadowWrite = some t.dsiCtl := by
  cases hop : l.op <;> rw [hop] at hstep
  case send bytes =>
    obtain ⟨b, -, hline⟩ := sendLine_next hstep
    exact shadowWrite_of_hsLine hs hline
  all_goals obtain rfl := Host.Outcome.next.inj hstep
  case checkLanes n =>
    split
    · exact .inl hs
    · exact .inl rfl
  case checkLength n =>
    split
    · exact .inl hs
    · exact .inl rfl
  case setShadow v => exact .inl hs
  case orShadow m => exact .inl hs
  case writeShadow => exact .inr rfl
  case write r v => exact .inl (if_neg (write_line_ne_dsiCtl hl hop))
  case delay d => exact .inl hs
  case complete r => exact .inl hs
  case raise k => exact .inl rfl

/-- Every step keeps the outstanding write and the shadow, or leaves no write of DSI_CTL outstanding but the shadow's. -/
theorem shadowWriteInv_step {s t : State} (h : ShadowWriteInv s) (hstep : step s = .next t) : ShadowWriteInv t := by
  rw [shadowWriteInv_iff] at h ⊢
  have hnone {p : PortState} {d : Word} (hp : p.shadowWrite = none) (v : Word) (hv : p.shadowWrite = some v) : v = d := by
    simp [hp] at hv
  rcases step_next_effects hstep with ⟨-, c, n, rfl⟩ | ⟨-, ⟨a, hp, pa, n, rfl⟩ | ⟨a, -, pa, n, rfl⟩ |
    ⟨r, v, -, rfl⟩ | ⟨-, v, rd, n, rfl⟩ | ⟨w, -, -, -, tw, n, rfl⟩ | ⟨w, -, -, -, k, tw, n, rfl⟩ |
    ⟨-, -, -, rfl⟩ | ⟨hw, -, -, l, hl, hline⟩ | ⟨-, -, -, rfl⟩ | ⟨-, -, -, rfl⟩⟩
  case inl => exact hnone rfl
  · rw [hp] at h; exact h
  · exact hnone rfl
  · exact hnone rfl
  · exact hnone rfl
  · exact h
  · exact h
  · exact hnone rfl
  · rcases shadowWrite_of_runLine hl (shadowWrite_of_not_waits hw) hline with e | e
    · exact hnone e
    · exact fun v hv => Option.some.inj (hv.symm.trans e)
  · exact h
  · rcases hostStep_cases s with e | ⟨c, q, -, e⟩ <;> rw [e]
    · exact h
    · exact h

/-- Settles O38: the CONTROLLER's step sets DSI_CTL to the value of the write, which is the shadow. -/
theorem shadowAndControllerAgreeAfterAWrite : Obligations.ShadowAndControllerAgreeAfterAWrite := by
  refine ⟨fun s t => shadowWriteInv_step, fun s t v h hrst hport hstep => ?_⟩
  rw [step_of_atCtrl hrst hport] at hstep
  obtain rfl := Host.Outcome.next.inj hstep
  simp [controllerStep, hport, h v (.inr hport)]

/-! ## A line of the handshake is a step of the machine (R30, R121) -/

/-- The CORE is about to run a line of the handshake of byte `b`, one of `bytes`, or waits for that line's access. -/
structure Sending (s : State) (bytes : List Byte) (b : Byte) : Prop where
  rst : s.rst = false
  st : s.st = .exec
  timer : s.timer = none
  sends : sendsAt s.cur.instr s = some bytes
  byte : bytes[s.upc.txIdx]? = some b

theorem sending_of_atByte {s : State} {bytes : List Byte} {b : Byte} (h : AtByte s bytes b) : Sending s bytes b :=
  ⟨h.rst, h.st, h.free.2, h.sends, h.byte⟩

/-- What a handshake changes along its way does not change what is sent. -/
theorem Sending.update {s : State} {bytes : List Byte} {b : Byte} (h : Sending s bytes b) (p : HsLine) (d v : Word)
    (k : Nat) (port : PortState) (c : CtrlRegs) (pa : List Bool) (rd : List Word) (tr : List Event) :
    Sending { s with
      upc := ⟨s.upc.line, s.upc.txIdx, p⟩, dsiCtl := d, hsSaved := v, pollN := k, port := port, ctrl := c
      portAnswers := pa, readDraws := rd, trace := tr } bytes b :=
  ⟨h.rst, h.st, h.timer, h.sends, h.byte⟩

/-- A step with nothing outstanding runs the handshake's line. -/
theorem Sending.step_of_idle {s : State} {bytes : List Byte} {b : Byte} (h : Sending s bytes b) (hp : s.port = .idle) :
    step s = hsLine b bytes.length s := by
  obtain ⟨m, hl⟩ := send_line_of_sendsAt h.sends
  rw [step_of_core h.rst ⟨hp, h.timer⟩ h.st, exec_eq_runProgram, runProgram_of_free ⟨hp, h.timer⟩ hl]
  simp only [runLine, sendLine, h.byte]

/-- A step with a value at hand runs the handshake's line. -/
theorem Sending.step_of_got {s : State} {bytes : List Byte} {b : Byte} {v : Word} (h : Sending s bytes b)
    (hp : s.port = .got v) : step s = hsLine b bytes.length s := by
  obtain ⟨m, hl⟩ := send_line_of_sendsAt h.sends
  rw [Machine.step_of_got h.rst hp h.timer h.st, exec_eq_runProgram, runProgram_of_got hp h.timer hl]
  simp only [runLine, sendLine, h.byte]

/-- A step that issues a write, and the two that perform it (R11, R58). -/
theorem runs_issue_write {s t : State} {r : Reg} {v : Word} {pa : List Bool}
    (hstep : step s = .next t) (hr : t.rst = false) (hp : t.port = .req (.write r v)) (ha : t.portAnswers = true :: pa) :
    Runs 3 s { t with port := .idle, portAnswers := pa, ctrl := t.ctrl.set r v, trace := t.trace ++ [wEvent r v] } :=
  runs_succ hstep (runs_write_ok hr hp ha)

/-! ## A wait that ends ready (R122) -/

/-- The two waits of a handshake. -/
inductive HsWait where
  | wait1 | wait2

/-- `poll_n <- 0`. -/
def HsWait.clear : HsWait → HsLine
  | .wait1 => .wait1Clear
  | .wait2 => .wait2Clear

/-- `v <- PortRead(READY_OFF)`. -/
def HsWait.read : HsWait → HsLine
  | .wait1 => .wait1Read
  | .wait2 => .wait2Read

/-- The ready test and the count. -/
def HsWait.test : HsWait → HsLine
  | .wait1 => .wait1Test
  | .wait2 => .wait2Test

/-- The bound `HS_TIMEOUT`. -/
def HsWait.bound : HsWait → HsLine
  | .wait1 => .wait1Bound
  | .wait2 => .wait2Bound

/-- The line after the wait. -/
def HsWait.ready : HsWait → HsLine
  | .wait1 => .txWrite
  | .wait2 => .restoreShadow

section
variable {s : State} (w : HsWait) (b : Byte) (n : Nat)

theorem hsLine_clear (h : s.upc.hs = w.clear) : hsLine b n s = .next (gotoHs w.read { s with pollN := 0 }) := by
  cases w <;> simp only [HsWait.clear] at h <;> simp only [hsLine, h, HsWait.read]

theorem hsLine_read (h : s.upc.hs = w.read) : hsLine b n s = .next (gotoHs w.test (issue .readReady s)) := by
  cases w <;> simp only [HsWait.read] at h <;> simp only [hsLine, h, HsWait.test]

theorem hsLine_test (h : s.upc.hs = w.test) : hsLine b n s = pollTest w.ready w.bound s := by
  cases w <;> simp only [HsWait.test] at h <;> simp only [hsLine, h, HsWait.ready, HsWait.bound]

theorem hsLine_bound (h : s.upc.hs = w.bound) : hsLine b n s = .next (pollBound w.read s) := by
  cases w <;> simp only [HsWait.bound] at h <;> simp only [hsLine, h, HsWait.read]

end

/-- Below every bound of a wait, the bound is not reached (R122). -/
theorem pollBoundReached_eq_false {k : Nat} (h : ∀ n, Config.hsTimeout = some n → k < n) :
    pollBoundReached k = false := by
  unfold pollBoundReached
  split
  · rfl
  · next n hb => exact decide_eq_false (Nat.not_le.2 (h n hb))

section
variable {s : State} {bytes : List Byte} {b : Byte} {w : HsWait}

/-- The test of a ready value ends the wait. -/
theorem Sending.step_ready {v : Word} (h : Sending s bytes b) (hp : s.port = .got v) (hs : s.upc.hs = w.test)
    (hv : isReady v = true) : step s = .next (gotoHs w.ready { s with port := .idle }) := by
  rw [h.step_of_got hp, hsLine_test w _ _ hs]
  simp only [pollTest, hp, hv, if_true]

/-- The test of any other value counts it. -/
theorem Sending.step_notReady {v : Word} (h : Sending s bytes b) (hp : s.port = .got v) (hs : s.upc.hs = w.test)
    (hv : isReady v = false) : step s = .next (gotoHs w.bound { s with port := .idle, pollN := s.pollN + 1 }) := by
  rw [h.step_of_got hp, hsLine_test w _ _ hs]
  simp only [pollTest, hp, hv, Bool.false_eq_true, if_false]

/-- Below its bound the wait goes back to its read. -/
theorem Sending.step_bound (h : Sending s bytes b) (hp : s.port = .idle) (hs : s.upc.hs = w.bound)
    (hk : pollBoundReached s.pollN = false) : step s = .next (gotoHs w.read s) := by
  rw [h.step_of_idle hp, hsLine_bound w _ _ hs, pollBound, hk]
  rfl

variable {pa : List Bool} {rd : List Word}

/-- From the read to the test of its value: three steps (note 4). -/
theorem Sending.runs_read {v : Word} (h : Sending s bytes b) (hp : s.port = .idle) (hs : s.upc.hs = w.read)
    (ha : s.portAnswers = true :: pa) (hd : s.readDraws = v :: rd) :
    Runs 3 s { s with
      upc := ⟨s.upc.line, s.upc.txIdx, w.test⟩, port := .got v, portAnswers := pa, readDraws := rd
      trace := s.trace ++ [rEvent v] } :=
  runs_succ ((h.step_of_idle hp).trans (hsLine_read w _ _ hs)) (runs_read_ok h.rst rfl ha hd)

/-- A ready read: four steps lead out of the wait (R122). -/
theorem Sending.runs_ready {v : Word} (h : Sending s bytes b) (hp : s.port = .idle) (hs : s.upc.hs = w.read)
    (ha : s.portAnswers = true :: pa) (hd : s.readDraws = v :: rd) (hv : isReady v = true) :
    Runs 4 s { s with
      upc := ⟨s.upc.line, s.upc.txIdx, w.ready⟩, port := .idle, portAnswers := pa, readDraws := rd
      trace := s.trace ++ [rEvent v] } :=
  runs_add (h.runs_read hp hs ha hd) (runs_one ((h.update w.test _ _ _ _ _ _ _ _).step_ready rfl rfl hv))

/-- A not-ready read below the bound: five steps lead back to the read, and `poll_n` counts it (R122). -/
theorem Sending.runs_notReady {v : Word} (h : Sending s bytes b) (hp : s.port = .idle) (hs : s.upc.hs = w.read)
    (ha : s.portAnswers = true :: pa) (hd : s.readDraws = v :: rd) (hv : isReady v = false)
    (hk : pollBoundReached (s.pollN + 1) = false) :
    Runs 5 s { s with
      upc := ⟨s.upc.line, s.upc.txIdx, w.read⟩, pollN := s.pollN + 1, port := .idle, portAnswers := pa
      readDraws := rd, trace := s.trace ++ [rEvent v] } :=
  runs_add (h.runs_read hp hs ha hd) (runs_succ ((h.update w.test _ _ _ _ _ _ _ _).step_notReady rfl rfl hv)
    (runs_one ((h.update w.bound _ _ _ _ _ _ _ _).step_bound rfl rfl hk)))

/-- From a wait's read to its end, after the reads `nots` and a ready one (R122). -/
theorem Sending.runs_polls {nots : List Word} {r : Word} (h : Sending s bytes b) (hp : s.port = .idle)
    (hs : s.upc.hs = w.read) (ha : s.portAnswers = List.replicate (nots.length + 1) true ++ pa)
    (hd : s.readDraws = nots ++ [r] ++ rd) (hnots : ∀ v ∈ nots, isReady v = false) (hr : isReady r = true)
    (hk : ∀ k ≤ nots.length, pollBoundReached (s.pollN + k) = false) :
    Runs (5 * nots.length + 4) s { s with
      upc := ⟨s.upc.line, s.upc.txIdx, w.ready⟩, pollN := s.pollN + nots.length, port := .idle, portAnswers := pa
      readDraws := rd, trace := s.trace ++ (nots ++ [r]).map rEvent } := by
  induction nots generalizing s with
  | nil => exact h.runs_ready hp hs ha hd hr
  | cons v nots ih =>
    have hread := h.runs_notReady hp hs ha hd (hnots v List.mem_cons_self) (hk 1 (by simp))
    have hbelow (k : Nat) (hle : k ≤ nots.length) : pollBoundReached (s.pollN + 1 + k) = false := by
      rw [Nat.add_assoc, Nat.add_comm 1 k]
      exact hk (k + 1) (Nat.succ_le_succ hle)
    have hall := runs_add hread
      (ih (h.update ..) rfl rfl rfl rfl (fun x hx => hnots x (List.mem_cons_of_mem v hx)) hbelow)
    rw [show 5 + (5 * nots.length + 4) = 5 * (v :: nots).length + 4 by simp; omega] at hall
    simpa [Nat.add_assoc, Nat.add_comm 1] using hall

/-- A wait that ends ready: five steps for each of its reads, `poll_n` the number of those not ready (R122). -/
theorem Sending.runs_wait {reads : List Word} (h : Sending s bytes b) (hp : s.port = .idle) (hs : s.upc.hs = w.clear)
    (hends : WaitEndsReady reads) (ha : s.portAnswers = List.replicate reads.length true ++ pa)
    (hd : s.readDraws = reads ++ rd) :
    Runs (5 * reads.length) s { s with
      upc := ⟨s.upc.line, s.upc.txIdx, w.ready⟩, pollN := reads.length - 1, port := .idle, portAnswers := pa
      readDraws := rd, trace := s.trace ++ reads.map rEvent } := by
  obtain ⟨nots, r, rfl, hnots, hr, hbound⟩ := hends
  have hk (k : Nat) (hle : k ≤ nots.length) : pollBoundReached (0 + k) = false := by
    rw [Nat.zero_add]
    refine pollBoundReached_eq_false fun n hb => ?_
    rw [hb] at hbound
    exact Nat.lt_of_le_of_lt hle hbound
  have hclear : step s = .next (gotoHs w.read { s with pollN := 0 }) := (h.step_of_idle hp).trans (hsLine_clear w _ _ hs)
  have hpolls := Sending.runs_polls (s := gotoHs w.read { s with pollN := 0 }) (h.update ..) hp rfl (by simpa using ha)
    hd hnots hr hk
  have hall := runs_succ hclear hpolls
  rw [show 5 * nots.length + 4 + 1 = 5 * (nots ++ [r]).length by simp; omega] at hall
  simpa using hall

end

/-! ## One handshake (R121) -/

section
variable {s : State} {bytes : List Byte} {b : Byte} {pa : List Bool}

/-- SET: the shadow is saved, LP_SEND set in it, and DSI_CTL written (R121). -/
theorem Sending.runs_set (h : Sending s bytes b) (hp : s.port = .idle) (hs : s.upc.hs = .setSave)
    (ha : s.portAnswers = true :: pa) :
    Runs 5 s { s with
      upc := ⟨s.upc.line, s.upc.txIdx, .wait1Clear⟩, hsSaved := s.dsiCtl, dsiCtl := s.dsiCtl ||| Config.lpSendMask
      port := .idle, portAnswers := pa, ctrl := s.ctrl.set .dsiCtl (s.dsiCtl ||| Config.lpSendMask)
      trace := s.trace ++ [wEvent .dsiCtl (s.dsiCtl ||| Config.lpSendMask)] } := by
  have hsave : step s = .next (gotoHs .setShadow { s with hsSaved := s.dsiCtl }) := by
    rw [h.step_of_idle hp, hsLine, hs]
  have hset : step (gotoHs .setShadow { s with hsSaved := s.dsiCtl }) =
      .next (gotoHs .setWrite { s with hsSaved := s.dsiCtl, dsiCtl := s.dsiCtl ||| Config.lpSendMask }) :=
    Sending.step_of_idle (h.update ..) hp
  have hwrite : step (gotoHs .setWrite { s with hsSaved := s.dsiCtl, dsiCtl := s.dsiCtl ||| Config.lpSendMask }) =
      .next (gotoHs .wait1Clear (issue (.write .dsiCtl (s.dsiCtl ||| Config.lpSendMask))
        { s with hsSaved := s.dsiCtl, dsiCtl := s.dsiCtl ||| Config.lpSendMask })) :=
    Sending.step_of_idle (h.update ..) hp
  exact runs_succ hsave (runs_succ hset (runs_issue_write hwrite h.rst rfl ha))

/-- WRITE: the marked byte is written to LP_TX (R80, R121). -/
theorem Sending.runs_tx (h : Sending s bytes b) (hp : s.port = .idle) (hs : s.upc.hs = .txWrite)
    (ha : s.portAnswers = true :: pa) :
    Runs 3 s { s with
      upc := ⟨s.upc.line, s.upc.txIdx, .wait2Clear⟩, port := .idle, portAnswers := pa
      ctrl := s.ctrl.set .lpTx (txWord b), trace := s.trace ++ [wEvent .lpTx (txWord b)] } := by
  have hwrite : step s = .next (gotoHs .wait2Clear (issue (.write .lpTx (txWord b)) s)) := by
    rw [h.step_of_idle hp, hsLine, hs]
  exact runs_issue_write hwrite h.rst rfl ha

/-- Where the handshake of byte `i` of `n` at line `k` leaves `upc`: at the next byte, or at the next line (R126). -/
def afterByte (n k i : Nat) : Upc :=
  if i + 1 < n then ⟨k, i + 1, .setSave⟩ else ⟨k + 1, 0, .setSave⟩

theorem nextByte_eq (n : Nat) (s : State) : nextByte n s = { s with upc := afterByte n s.upc.line s.upc.txIdx } := by
  unfold nextByte afterByte
  split <;> rfl

/-- RESTORE: the saved shadow is put back, and DSI_CTL written (R121). -/
theorem Sending.runs_restore (h : Sending s bytes b) (hp : s.port = .idle) (hs : s.upc.hs = .restoreShadow)
    (ha : s.portAnswers = true :: pa) :
    Runs 4 s { s with
      upc := afterByte bytes.length s.upc.line s.upc.txIdx, dsiCtl := s.hsSaved, port := .idle, portAnswers := pa
      ctrl := s.ctrl.set .dsiCtl s.hsSaved, trace := s.trace ++ [wEvent .dsiCtl s.hsSaved] } := by
  have hrestore : step s = .next (gotoHs .restoreWrite { s with dsiCtl := s.hsSaved }) := by
    rw [h.step_of_idle hp, hsLine, hs]
  have hwrite : step (gotoHs .restoreWrite { s with dsiCtl := s.hsSaved }) =
      .next { s with
        upc := afterByte bytes.length s.upc.line s.upc.txIdx, dsiCtl := s.hsSaved
        port := .req (.write .dsiCtl s.hsSaved) } :=
    (Sending.step_of_idle (s := gotoHs .restoreWrite { s with dsiCtl := s.hsSaved }) (h.update ..) hp).trans
      (congrArg Host.Outcome.next (nextByte_eq ..))
  exact runs_succ hrestore (runs_issue_write hwrite h.rst rfl ha)

/-- The CONTROLLER's registers after a handshake (R121, R58). -/
def handshakeCtrl (v : Word) (b : Byte) (c : CtrlRegs) : CtrlRegs :=
  ((c.set .dsiCtl (v ||| Config.lpSendMask)).set .lpTx (txWord b)).set .dsiCtl v

theorem handshakeCtrl_get (v : Word) (b : Byte) (c : CtrlRegs) (q : Reg) :
    (handshakeCtrl v b c).get q = if q = .dsiCtl then v else if q = .lpTx then txWord b else c.get q := by
  simp only [handshakeCtrl, CtrlRegs.get_set]
  split <;> rfl

/-- A whole handshake whose waits end ready (R121, R122). -/
theorem Sending.runs_handshake {r1 r2 rd : List Word} (h : Sending s bytes b) (hp : s.port = .idle)
    (hs : s.upc.hs = .setSave) (h1 : WaitEndsReady r1) (h2 : WaitEndsReady r2)
    (ha : s.portAnswers = List.replicate (3 + (r1.length + r2.length)) true ++ pa) (hd : s.readDraws = r1 ++ r2 ++ rd) :
    Runs (12 + 5 * (r1.length + r2.length)) s { s with
      hsSaved := s.dsiCtl, pollN := r2.length - 1, upc := afterByte bytes.length s.upc.line s.upc.txIdx
      portAnswers := pa, readDraws := rd
      ctrl := handshakeCtrl s.dsiCtl b s.ctrl, trace := s.trace ++ handshakeTrace s.dsiCtl r1 r2 b } := by
  have hanswers : s.portAnswers = true :: (List.replicate r1.length true ++
      (true :: (List.replicate r2.length true ++ (true :: pa)))) := by
    rw [ha, show 3 + (r1.length + r2.length) = 1 + (r1.length + (1 + (r2.length + 1))) by omega]
    simp only [List.replicate_add, List.append_assoc]
    rfl
  have hall := runs_add (h.runs_set hp hs hanswers)
    (runs_add (Sending.runs_wait (w := .wait1) (h.update ..) rfl rfl h1 rfl (hd.trans (List.append_assoc ..)))
    (runs_add (Sending.runs_tx (h.update ..) rfl rfl rfl)
    (runs_add (Sending.runs_wait (w := .wait2) (h.update ..) rfl rfl h2 rfl rfl)
      (Sending.runs_restore (h.update ..) rfl rfl rfl))))
  rw [show 5 + (5 * r1.length + (3 + (5 * r2.length + 4))) = 12 + 5 * (r1.length + r2.length) by omega] at hall
  simpa [handshakeTrace, handshakeCtrl, txWord, hp] using hall

end

/-- Settles O50: SET, WAIT1, WRITE, WAIT2 and RESTORE one after the other. -/
theorem aHandshakeCompletes : Obligations.AHandshakeCompletes := by
  intro s bytes b r1 r2 rd pa h h1 h2 ha hd
  exact ⟨_, (sending_of_atByte h).runs_handshake h.free.1 h.set h1 h2 ha hd, rfl, handshakeCtrl_get _ _ _⟩

/-! ## A packet (R126) -/

theorem packetSteps_cons (p : List Word × List Word) (polls : Polls) :
    packetSteps (p :: polls) = 12 + 5 * (p.1.length + p.2.length) + packetSteps polls := rfl

theorem packetAccesses_cons (p : List Word × List Word) (polls : Polls) :
    packetAccesses (p :: polls) = 3 + (p.1.length + p.2.length) + packetAccesses polls := rfl

theorem pollValues_cons (p : List Word × List Word) (polls : Polls) :
    pollValues (p :: polls) = p.1 ++ p.2 ++ pollValues polls := rfl

/-- The trace of a packet from byte `i` on begins with that byte's handshake. -/
theorem packetTrace_drop {bytes : List Byte} {i : Nat} (hi : i < bytes.length) (v : Word) (p : List Word × List Word)
    (polls : Polls) : packetTrace v (p :: polls) (bytes.drop i) =
      handshakeTrace v p.1 p.2 bytes[i] ++ packetTrace v polls (bytes.drop (i + 1)) := by
  rw [List.drop_eq_getElem_cons hi]
  rfl

/-- The bytes of a send line from the one `upc` names on: each byte's handshake in turn, and then the next line (R126). -/
theorem runs_bytes {s : State} {bytes : List Byte} {polls : Polls} {pa : List Bool} {rd : List Word}
    (hrst : s.rst = false) (hst : s.st = .exec) (hfree : CoreFree s) (hsends : sendsAt s.cur.instr s = some bytes)
    (hs : s.upc.hs = .setSave) (hlt : s.upc.txIdx < bytes.length) (hlen : s.upc.txIdx + polls.length = bytes.length)
    (hends : PollsEndReady polls) (ha : s.portAnswers = List.replicate (packetAccesses polls) true ++ pa)
    (hd : s.readDraws = pollValues polls ++ rd) :
    ∃ k c, Runs (packetSteps polls) s { s with
        hsSaved := s.dsiCtl, pollN := k, upc := ⟨s.upc.line + 1, 0, .setSave⟩, portAnswers := pa, readDraws := rd
        ctrl := c, trace := s.trace ++ packetTrace s.dsiCtl polls (bytes.drop s.upc.txIdx) } ∧
      c.get .dsiCtl = s.dsiCtl ∧ ∀ q, q ≠ .dsiCtl → q ≠ .lpTx → c.get q = s.ctrl.get q := by
  induction polls generalizing s with
  | nil => simp at hlen; omega
  | cons p polls ih =>
    obtain ⟨h1, h2⟩ := hends p List.mem_cons_self
    have hsend : Sending s bytes bytes[s.upc.txIdx] := ⟨hrst, hst, hfree.2, hsends, List.getElem?_eq_getElem hlt⟩
    have hbyte := hsend.runs_handshake (rd := pollValues polls ++ rd)
      (pa := List.replicate (packetAccesses polls) true ++ pa) hfree.1 hs h1 h2
      (by rw [ha, packetAccesses_cons, List.replicate_add, List.append_assoc])
      (by rw [hd, pollValues_cons, List.append_assoc])
    rw [packetTrace_drop hlt, packetSteps_cons, ← List.append_assoc]
    have hctrl := handshakeCtrl_get s.dsiCtl bytes[s.upc.txIdx] s.ctrl
    by_cases hmore : s.upc.txIdx + 1 < bytes.length
    · rw [afterByte, if_pos hmore] at hbyte
      have hlen' : s.upc.txIdx + 1 + polls.length = bytes.length := by
        rw [← hlen, List.length_cons, Nat.add_assoc, Nat.add_comm 1]
      obtain ⟨k, c, hrest, hshadow, hregs⟩ := ih (s := { s with
          hsSaved := s.dsiCtl, pollN := p.2.length - 1, upc := ⟨s.upc.line, s.upc.txIdx + 1, .setSave⟩
          portAnswers := List.replicate (packetAccesses polls) true ++ pa, readDraws := pollValues polls ++ rd
          ctrl := handshakeCtrl s.dsiCtl bytes[s.upc.txIdx] s.ctrl
          trace := s.trace ++ handshakeTrace s.dsiCtl p.1 p.2 bytes[s.upc.txIdx] }) hrst hst hfree hsends rfl hmore
        hlen' (fun x hx => hends x (List.mem_cons_of_mem p hx)) rfl rfl
      refine ⟨k, c, runs_add hbyte hrest, hshadow, fun q hq hq' => ?_⟩
      rw [hregs q hq hq', hctrl, if_neg hq, if_neg hq']
    · obtain rfl : polls = [] := List.eq_nil_of_length_eq_zero (by simp at hlen; omega)
      rw [afterByte, if_neg hmore] at hbyte
      refine ⟨p.2.length - 1, _, ?_, hctrl .dsiCtl, fun q hq hq' => by rw [hctrl, if_neg hq, if_neg hq']⟩
      simpa [packetSteps, packetTrace, packetAccesses, pollValues] using hbyte

/-- The whole packet of a send line, begun at its first byte (R126). -/
theorem runs_packet {s : State} {bytes : List Byte} {polls : Polls} {pa : List Bool} {rd : List Word} {k : Nat}
    (hrst : s.rst = false) (hst : s.st = .exec) (hfree : CoreFree s) (hsends : sendsAt s.cur.instr s = some bytes)
    (hupc : s.upc = ⟨k, 0, .setSave⟩) (hne : bytes ≠ []) (hlen : polls.length = bytes.length)
    (hends : PollsEndReady polls) (ha : s.portAnswers = List.replicate (packetAccesses polls) true ++ pa)
    (hd : s.readDraws = pollValues polls ++ rd) :
    ∃ n c, Runs (packetSteps polls) s { s with
        hsSaved := s.dsiCtl, pollN := n, upc := ⟨k + 1, 0, .setSave⟩, portAnswers := pa, readDraws := rd
        ctrl := c, trace := s.trace ++ packetTrace s.dsiCtl polls bytes } ∧
      c.get .dsiCtl = s.dsiCtl ∧ ∀ q, q ≠ .dsiCtl → q ≠ .lpTx → c.get q = s.ctrl.get q := by
  have hall := runs_bytes hrst hst hfree hsends (by rw [hupc]) (by rw [hupc]; exact List.length_pos_iff.2 hne)
    (by rw [hupc]; simpa using hlen) hends ha hd
  simpa only [hupc, List.drop_zero] using hall

/-- Every instruction that sends bytes sends at least one (R126). -/
theorem wireBytes_ne_nil {i : Instr} {c : Cur} {bytes : List Byte} (h : wireBytes i c = some bytes) : bytes ≠ [] := by
  have hstart := List.all_eq_true.1 (programOf_closes i c).starts _ (List.mem_of_getElem? (programOf_sendLine h))
  simpa [Line.hasStart] using hstart

/-- Where `sendsAt` names the bytes of a packet command or an emitted item. -/
theorem sendsAt_sendLine {i : Instr} {s : State} {bytes : List Byte} (h : wireBytes i s.cur = some bytes)
    (hline : s.upc.line = sendLineOf i) : sendsAt i s = some bytes := by
  have hi : i ≠ .bringUp := by rintro rfl; cases h
  rw [sendsAt, if_neg hi, if_pos hline, h]

/-- SEND_LONG, under each of its names, begins with the check of the length (R129). -/
theorem checkLength_line {i : Instr} (h : Instr.checksLength i = true) (c : Cur) :
    (programOf i c)[0]? = some ⟨.main, .checkLength c.plen⟩ := by
  cases i <;> cases h <;> rfl

/-- From acceptance to the line that sends the bytes: the length check, where the command has one (R129, R201). -/
theorem Started.runs_to_sendLine {i : Instr} {s : State} (h : Started i s)
    (hlen : Instr.checksLength i = true → s.cur.plen.toNat ≤ 255) :
    Runs (sendLineOf i) s { s with upc := ⟨sendLineOf i, 0, .setSave⟩ } := by
  cases hcheck : Instr.checksLength i with
  | false =>
    have hline : sendLineOf i = 0 := by simp [sendLineOf, hcheck]
    have hstay := runs_zero s
    rw [hline, show (⟨0, 0, .setSave⟩ : Upc) = s.upc from h.first.symm]
    exact hstay
  | true =>
    have hline : sendLineOf i = 1 := by simp [sendLineOf, hcheck]
    have hrange : lengthInRange s.cur.plen = true := decide_eq_true (hlen hcheck)
    have hcheckLine : (programOf i s.cur)[s.upc.line]? = some ⟨.main, .checkLength s.cur.plen⟩ := by
      rw [h.first]; exact checkLength_line hcheck s.cur
    rw [hline]
    refine runs_one ?_
    rw [step_of_core h.rst h.free h.st, h.instr, exec_eq_runProgram, runProgram_of_free h.free hcheckLine]
    simp only [runLine, hrange, if_true, nextLine, h.first, Upc.first]

/-- Settles O51: the length check where there is one, the packet, and the line that ends the command. -/
theorem aPacketCompletes : Obligations.APacketCompletes := by
  intro i s bytes polls rd pa h hbytes hplen hlen hends ha hd
  have hsends : sendsAt s.cur.instr { s with upc := ⟨sendLineOf i, 0, .setSave⟩ } = some bytes := by
    rw [h.instr]
    exact sendsAt_sendLine hbytes rfl
  obtain ⟨n, c, hpacket, hshadow, hregs⟩ := runs_packet (s := { s with upc := ⟨sendLineOf i, 0, .setSave⟩ })
    h.rst h.st h.free hsends rfl (wireBytes_ne_nil hbytes) hlen hends ha hd
  have hall := runs_add (runs_add (h.runs_to_sendLine hplen) hpacket)
    (runs_one (step_complete h.rst h.st h.free h.instr (programOf_afterSend hbytes)))
  exact ⟨_, hall, rfl, rfl, rfl, rfl, rfl, h.err, h.free, rfl, rfl, rfl, rfl, hregs, hshadow⟩

end Sys2Proof.Machine

/-! # Proofs: accesses and waits (spec/20_memory.md)

The CORE waits for its answers (R63, R239) and changes its own state only (R50, R167, R241), and a failed access loses its
target and no other register (R58). -/

namespace Sys2Proof.Machine

/-! ## The CORE waits (R63, R239) -/

/-- The CORE waits exactly while a wait runs or an access is on its way (R63, R239). -/
theorem coreWaits_iff {s : State} :
    coreWaits s = true ↔ s.timer ≠ none ∨ (∃ a, s.port = .req a) ∨ (∃ a, s.port = .atCtrl a) := by
  rw [← Bool.not_eq_false, coreWaits_eq_false]
  simp only [not_and_or, not_forall, not_not]

/-- Settles O25: every instruction runs its program, and no program goes on while the CORE waits. -/
theorem theCoreWaitsForItsAnswers : Obligations.TheCoreWaitsForItsAnswers := by
  intro i s hout
  rw [exec_eq_runProgram]
  exact runProgram_of_waits (coreWaits_iff.2 hout)

/-! ## The CORE changes its own state only (R50, R167, R241) -/

/-- From `s` to `t` nothing changes but the CORE's registers, the latched command not among them, and the access and the wait
that it has outstanding. -/
def OnlyCoreChanges (s t : State) : Prop :=
  t = { s with
    st := t.st, dsiCtl := t.dsiCtl, hsSaved := t.hsSaved, upc := t.upc, pollN := t.pollN, result := t.result
    err := t.err, isDone := t.isDone, port := t.port, timer := t.timer }

theorem onlyCoreChanges_nextByte (n : Nat) (v : Word) (s : State) :
    OnlyCoreChanges s (nextByte n (issue (.write .dsiCtl v) s)) := by
  rw [nextByte_eq]
  rfl

/-- A line of the handshake changes the CORE's own state only (R121, R122). -/
theorem onlyCoreChanges_of_hsLine {b : Byte} {n : Nat} {s t : State} (hstep : hsLine b n s = .next t) :
    OnlyCoreChanges s t := by
  rcases hsLine_next_cases hstep with ⟨-, rfl⟩ | ⟨-, rfl⟩ | ⟨-, rfl⟩ | ⟨-, rfl⟩ | ⟨-, rfl⟩ |
    ⟨-, v, -, ⟨-, rfl⟩ | ⟨-, rfl⟩⟩ | ⟨-, -, rfl⟩ | ⟨-, -, rfl⟩ | ⟨-, rfl⟩ | ⟨-, rfl⟩ | ⟨-, rfl⟩ |
    ⟨-, v, -, ⟨-, rfl⟩ | ⟨-, rfl⟩⟩ | ⟨-, -, rfl⟩ | ⟨-, -, rfl⟩ | ⟨-, rfl⟩ | ⟨-, rfl⟩
  on_goal 18 => exact onlyCoreChanges_nextByte n s.dsiCtl s
  all_goals rfl

/-- A line of a program changes the CORE's own state only (R30). -/
theorem onlyCoreChanges_of_runLine {l : Line} {s t : State} (hstep : runLine l s = .next t) : OnlyCoreChanges s t := by
  cases l
  case send bytes =>
    obtain ⟨b, -, hline⟩ := sendLine_next hstep
    exact onlyCoreChanges_of_hsLine hline
  all_goals obtain rfl := Host.Outcome.next.inj hstep
  case checkLanes n => split <;> rfl
  case checkLength n => split <;> rfl
  all_goals rfl

/-- A step of the CORE, whatever the instruction, changes the CORE's own state only (R30, R63, R203). -/
theorem onlyCoreChanges_of_exec {i : Instr} {s t : State} (hstep : exec i s = .next t) : OnlyCoreChanges s t := by
  rw [exec_eq_runProgram] at hstep
  rcases runProgram_next_cases hstep with ⟨-, rfl⟩ | ⟨-, -, rfl⟩ | ⟨-, -, l, -, hline⟩
  · rfl
  · rfl
  · exact onlyCoreChanges_of_runLine hline

/-- Settles O26: none of these fields is among those that a step of the CORE changes. -/
theorem theCoreTouchesOnlyItsOwnState : Obligations.TheCoreTouchesOnlyItsOwnState := by
  intro i s t hstep
  rw [onlyCoreChanges_of_exec hstep]
  exact ⟨rfl, rfl, rfl, rfl, rfl, rfl, rfl, rfl, rfl, rfl, rfl⟩

/-! ## A running command's inputs (R167, R241) -/

/-- While a command runs, no step of any agent changes the latched command, unless `RST` is asserted (R167). -/
theorem step_keeps_cur {s t : State} (hrst : s.rst = false) (hst : s.st = .exec) (hstep : step s = .next t) :
    t.cur = s.cur := by
  rcases step_next_effects hstep with ⟨hreset, -⟩ | ⟨-, ⟨a, -, pa, n, rfl⟩ | ⟨a, -, pa, n, rfl⟩ | ⟨r, v, -, rfl⟩ |
    ⟨-, v, rd, n, rfl⟩ | ⟨w, -, -, -, tw, n, rfl⟩ | ⟨w, -, -, -, k, tw, n, rfl⟩ | ⟨-, -, -, rfl⟩ |
    ⟨-, -, -, l, -, hline⟩ | ⟨-, hidle, -⟩ | ⟨-, hidle, -⟩⟩
  case inl => simp [hrst] at hreset
  · rfl
  · rfl
  · rfl
  · rfl
  · rfl
  · rfl
  · rfl
  · rw [onlyCoreChanges_of_runLine hline]
  · simp [hst] at hidle
  · simp [hst] at hidle

/-- Settles O30: the steps keep the latched command, and the moves but the assertion of `RST` write inputs and answers to
come. -/
theorem aRunningCommandKeepsItsInputs : Obligations.ARunningCommandKeepsItsInputs := by
  refine ⟨fun s t => step_keeps_cur, fun s t hmove => ?_⟩
  cases hmove with
  | raiseReset => exact .inl rfl
  | drive | present | releaseReset | queue | answers =>
    exact .inr ⟨rfl, rfl, rfl, rfl, rfl, rfl, rfl, rfl, rfl, rfl, rfl, rfl, rfl⟩

/-! ## A failed access (R58) -/

/-- What a failed or interrupted access leaves: only a register that lies at the access's offset is unknown (R58, R232). -/
theorem CtrlRegs.get_clobber (c : CtrlRegs) (a : Access) (u : Word) (q : Reg) :
    (c.clobber a u).get q = if Config.off q = a.offset then u else c.get q := by
  cases a with
  | write r v => simp only [CtrlRegs.get_clobber_write, Access.offset, off_injective.eq_iff]
  | readReady => exact CtrlRegs.get_clobber_read c q u

/-- The PORT's step that answers `err`: the access's target takes the next draw, and the failed access enters the trace
(R58, R205). -/
theorem portStep_of_err {s : State} {a : Access} {pa : List Bool} (hport : s.port = .req a)
    (hanswer : s.portAnswers = false :: pa) : portStep s = { s with
      port := .failed a, portAnswers := pa, ctrl := s.ctrl.clobber a (Config.unknownReg s.drawN)
      drawN := s.drawN + 1, trace := s.trace ++ [failedEvent a] } := by
  cases a <;> simp only [portStep, nextPortAnswer, hport, hanswer] <;> rfl

/-- Settles O34: the PORT's step clobbers the register at the access's offset. -/
theorem aFailedAccessLosesItsTarget : Obligations.AFailedAccessLosesItsTarget := by
  intro s a pa hrst hport hanswer
  refine ⟨_, (step_of_req hrst hport).trans (congrArg Host.Outcome.next (portStep_of_err hport hanswer)), rfl,
    fun q hne => ?_, fun q heq => ?_⟩
  · rw [CtrlRegs.get_clobber, if_neg hne]
  · rw [CtrlRegs.get_clobber, if_pos heq]

end Sys2Proof.Machine

/-! # Proofs: encoding (spec/30_encoding.md)

Command words and their decoding (R71 to R77), what the CORE emits (R78 to R82), acceptance (R70), and what the moves of
the outside world keep. -/

namespace Sys2Proof.Machine

/-! ## Decoding what the encoder writes (R72, R77 to R82) -/

/-- A transmit word is four bytes, the marker in the second (R80). -/
theorem txWord_eq_commandWord (b : Byte) : txWord b = commandWord 0 0 1 b := by
  have hwide : b.setWidth 32 = (0#24 ++ b : Word) := BitVec.setWidth_eq_append (by omega)
  have hmark : (0x00000100#32 : Word) = 0x000001#24 ++ 0#8 := by decide
  have hhigh : (0x000001#24 : Header) = 0#8 ++ 0#8 ++ 1#8 := by decide
  rw [txWord, hwide, hmark, BitVec.or_append, BitVec.or_zero, BitVec.zero_or, hhigh]
  rfl

/-- The low byte of a word put together from bytes. -/
theorem extractLsb'_commandWord (a2 a1 a0 low : Byte) : (commandWord a2 a1 a0 low).extractLsb' 0 8 = low :=
  BitVec.extractLsb'_append_eq_right

/-- The words of R80's match and mask are the transmit words. -/
theorem txMask_iff (w : Word) : w &&& 0xFFFFFF00 = 0x00000100 ↔ ∃ b : Byte, w = txWord b := by
  have hmask : (0xFFFFFF00 : Word) = commandWord 0xFF 0xFF 0xFF 0x00 := by decide
  have hmatch : (0x00000100 : Word) = commandWord 0 0 1 0 := by decide
  obtain ⟨a2, a1, a0, low, rfl⟩ := exists_commandWord w
  simp only [hmask, hmatch, commandWord_and, and_fullByte, and_emptyByte, commandWord_inj, txWord_eq_commandWord]
  constructor
  · rintro ⟨h2, h1, h0, -⟩
    exact ⟨low, h2, h1, h0, rfl⟩
  · rintro ⟨b, h2, h1, h0, -⟩
    exact ⟨h2, h1, h0, trivial⟩

/-- The reader of transmit words gives the byte back (R80). -/
theorem decodeTxWord_txWord (b : Byte) : decodeTxWord (txWord b) = some (.lpTxWord b) := by
  rw [decodeTxWord, if_pos ((txMask_iff _).2 ⟨b, rfl⟩), txWord_eq_commandWord, extractLsb'_commandWord]

/-- Settles O1: the round trip of each instruction, and of the transmit word with its own reader. -/
theorem decodeEncodeRoundTrip : Obligations.DecodeEncodeRoundTrip := by
  refine ⟨fun i => ?_, decodeTxWord_txWord⟩
  cases i with
  | rev8 b => exact Laws.RoundTrip.rev8 b
  | ecc6 h => exact Laws.RoundTrip.ecc6 h
  | crc16 => exact Laws.RoundTrip.crc16
  | sendShort t w0 w1 => exact Laws.RoundTrip.sendShort t w0 w1
  | sendLong isDcs => exact Laws.RoundTrip.sendLong isDcs
  | bringUp => exact Laws.RoundTrip.bringUp
  | dcsNop => exact Laws.RoundTrip.dcsNop
  | dcsSleepOut => exact Laws.RoundTrip.dcsSleepOut
  | dcsDisplayOn => exact Laws.RoundTrip.dcsDisplayOn
  | dcsExitIdle => exact Laws.RoundTrip.dcsExitIdle
  | dcsLong => exact Laws.RoundTrip.dcsLong
  | genLong => exact Laws.RoundTrip.genLong
  | illegal w => exact Laws.RoundTrip.illegal w
  | lpTxWord b => exact Laws.RoundTrip.lpTxWord b
  | shortPacket t w0 w1 => exact Laws.RoundTrip.shortPacket t w0 w1
  | longPacket isDcs p c => exact Laws.RoundTrip.longPacket isDcs p c
  | lpPreamble => exact Laws.RoundTrip.lpPreamble
  | dtDcsShortNoparam => exact Laws.RoundTrip.dtDcsShortNoparam
  | dtDcsShortWrite => exact Laws.RoundTrip.dtDcsShortWrite
  | dtDcsLongWrite => exact Laws.RoundTrip.dtDcsLongWrite
  | dtGenericLongWrite => exact Laws.RoundTrip.dtGenericLongWrite
  | dcsCmdNop => exact Laws.RoundTrip.dcsCmdNop
  | dcsCmdSleepOut => exact Laws.RoundTrip.dcsCmdSleepOut
  | dcsCmdDisplayOn => exact Laws.RoundTrip.dcsCmdDisplayOn
  | dcsCmdExitIdleMode => exact Laws.RoundTrip.dcsCmdExitIdleMode

/-! ## Encoding what a command word decodes to (R71, R72, R74) -/

/-- A byte with bits 7:1 zero is its bit 0 (R73, `is_dcs`). -/
theorem byte_of_bit0 : ∀ b : Byte, b &&& 0xFE = 0 → (if b.getLsbD 0 then 1 else 0) = b := by decide

/-- Three bytes side by side are cut into the same three. -/
theorem extractLsb'_header (a2 a1 a0 : Byte) : (a2 ++ a1 ++ a0 : Header).extractLsb' 16 8 = a2 ∧
    (a2 ++ a1 ++ a0 : Header).extractLsb' 8 8 = a1 ∧ (a2 ++ a1 ++ a0 : Header).extractLsb' 0 8 = a0 := by
  refine ⟨?_, ?_, BitVec.extractLsb'_append_eq_right⟩
  · rw [BitVec.extractLsb'_append_eq_of_le (by omega)]
    exact BitVec.extractLsb'_append_eq_left
  · rw [BitVec.extractLsb'_append_eq_of_le (by omega)]
    exact BitVec.extractLsb'_append_eq_right

/-- Settles O2: the fields that a row fixes have its values, and the others are operands. -/
theorem commandWordsReencode : Obligations.CommandWordsReencode := by
  intro w
  obtain ⟨a2, a1, a0, low, rfl⟩ := exists_commandWord w
  obtain ⟨hh2, hh1, hh0⟩ := extractLsb'_header a2 a1 a0
  have hcrc : (0x00000003 : Word) = commandWord 0 0 0 3 := by decide
  have hbring : (0x00000006 : Word) = commandWord 0 0 0 6 := by decide
  rw [decodeCommand_commandWord]
  split_ifs with h1 h2 h3 h4 h5 h6
  · obtain ⟨rfl, rfl, rfl⟩ := h1
    rfl
  · subst h2
    rw [encode, hh2, hh1, hh0]
  · obtain ⟨rfl, rfl, rfl, rfl⟩ := h3
    rw [encode, hcrc]
  · subst h4
    rfl
  · obtain ⟨rfl, rfl, hbit, rfl⟩ := h5
    rw [encode, byte_of_bit0 a0 hbit]
  · obtain ⟨rfl, rfl, rfl, rfl⟩ := h6
    rw [encode, hbring]
  · rfl

/-! ## The rows of the opcode map (R72, R74, R75) -/

/-- Every row fixes the low byte of its words. -/
theorem lowByte_of_hits {r : CommandRow} (hr : r ∈ commandRows) {w : Word} (h : r.hits w = true) :
    r.pat.extractLsb' 0 8 = w.extractLsb' 0 8 := by
  have hmask : ∀ q ∈ commandRows, q.mask.extractLsb' 0 8 = 0xFF := by simp [commandRows]
  rw [← beq_iff_eq.1 h, BitVec.extractLsb'_and, hmask r hr, and_fullByte]

/-- No two rows fix the same low byte. -/
theorem lowBytes_nodup : (commandRows.map fun r => r.pat.extractLsb' 0 8).Nodup := by
  decide

/-- At most one row matches a word: the low byte tells the rows apart. -/
theorem hits_length_le_one (w : Word) : (commandRows.filter fun r => r.hits w).length ≤ 1 := by
  have hnodup := lowBytes_nodup.sublist (List.filter_sublist (p := fun r => r.hits w) |>.map _)
  have hconst : (commandRows.filter fun r => r.hits w).map (fun r => r.pat.extractLsb' 0 8) =
      List.replicate (commandRows.filter fun r => r.hits w).length (w.extractLsb' 0 8) := by
    rw [List.map_eq_replicate_iff]
    intro r hr
    obtain ⟨hrow, hhits⟩ := List.mem_filter.1 hr
    exact lowByte_of_hits hrow hhits
  rw [hconst] at hnodup
  exact List.nodup_replicate.1 hnodup

/-- No row's words are read as ILLEGAL. -/
theorem build_ne_illegal {r : CommandRow} (hr : r ∈ commandRows) (w : Word) : r.build w ≠ .illegal w := by
  revert r
  simp [commandRows]

/-- A word is illegal when no row matches it (R75). -/
theorem decodeCommand_eq_illegal_iff (w : Word) :
    decodeCommand w = .illegal w ↔ (commandRows.filter fun r => r.hits w) = [] := by
  rw [List.filter_eq_nil_iff, ← List.find?_eq_none, decodeCommand]
  cases hfind : commandRows.find? (fun r => r.hits w) with
  | none => simp
  | some r => simpa using build_ne_illegal (List.mem_of_find?_eq_some hfind) w

/-- Settles O3: the low byte tells the rows apart, and a word of no row is ILLEGAL. -/
theorem everyWordMatchesAtMostOneRow : Obligations.EveryWordMatchesAtMostOneRow := by
  intro w
  have hle := hits_length_le_one w
  refine ⟨hle, ?_⟩
  rw [ne_eq, decodeCommand_eq_illegal_iff, ← List.length_eq_zero_iff]
  omega

/-! ## The illegal words (R75, R207) -/

/-- The low byte {RSV, OP} of a word with `RSV` = 0 and `OP` in 1..6. -/
theorem lowByte_of_legal : ∀ low : Byte, low.extractLsb' 4 4 = 0 → low.extractLsb' 0 4 ≠ 0 →
    (low.extractLsb' 0 4).toNat < 7 → low = 1 ∨ low = 2 ∨ low = 3 ∨ low = 4 ∨ low = 5 ∨ low = 6 := by
  decide

/-- A byte with bits 7:1 zero passes SEND_LONG's mask (R72). -/
theorem mask_of_highBits : ∀ b : Byte, b.extractLsb' 1 7 = 0 → b &&& 0xFE = 0 := by
  decide

/-- A word that R75 does not list is a command's. -/
theorem decodeCommand_ne_illegal {w : Word} (h : illegalWord w = false) : decodeCommand w ≠ .illegal w := by
  obtain ⟨a2, a1, a0, low, rfl⟩ := exists_commandWord w
  simp only [illegalWord, argumentsNotZero, opField_commandWord, rsvField_commandWord, a0Field_commandWord,
    a1Field_commandWord, a2Field_commandWord, Bool.or_eq_false_iff, beq_eq_false_iff_ne, decide_eq_false_iff_not,
    not_le, bne_eq_false_iff_eq] at h
  obtain ⟨⟨⟨hop, hlt⟩, hrsv⟩, hargs⟩ := h
  rw [decodeCommand_commandWord]
  rcases lowByte_of_legal low hrsv hop hlt with rfl | rfl | rfl | rfl | rfl | rfl
  · obtain ⟨h1, h2⟩ : a1 = 0 ∧ a2 = 0 := by simpa using hargs
    simp [h1, h2]
  · simp
  · obtain ⟨⟨h0, h1⟩, h2⟩ : (a0 = 0 ∧ a1 = 0) ∧ a2 = 0 := by simpa using hargs
    simp [h0, h1, h2]
  · simp
  · obtain ⟨⟨h0, h1⟩, h2⟩ : (a0.extractLsb' 1 7 = 0 ∧ a1 = 0) ∧ a2 = 0 := by simpa using hargs
    have hbits : a0 &&& 0xFE#8 = 0#8 := mask_of_highBits a0 h0
    simp [hbits, h1, h2]
  · obtain ⟨⟨h0, h1⟩, h2⟩ : (a0 = 0 ∧ a1 = 0) ∧ a2 = 0 := by simpa using hargs
    simp [h0, h1, h2]

/-- The illegal words are those that R75 lists. -/
theorem decodeCommand_eq_illegal_iff_illegalWord (w : Word) : decodeCommand w = .illegal w ↔ illegalWord w = true := by
  refine ⟨fun h => ?_, decodeCommand_of_illegalWord⟩
  by_contra hlegal
  exact decodeCommand_ne_illegal (Bool.eq_false_of_not_eq_true hlegal) h

/-- Settles O18: the one line of the program raises IllegalCommand. -/
theorem illegalWordsRaiseIllegalCommand : Obligations.IllegalWordsRaiseIllegalCommand := by
  refine ⟨decodeCommand_eq_illegal_iff_illegalWord, fun w s hfree hfirst => ?_⟩
  have hline : (programOf (.illegal w) s.cur)[s.upc.line]? = some ⟨.main, .raise .illegalCommand⟩ := by
    rw [hfirst]
    rfl
  obtain ⟨hport, -⟩ := id hfree
  rw [exec_eq_runProgram, runProgram_of_free hfree hline]
  simp only [runLine, abort, errCode, ← hport]

/-! ## Operands and written words (R73, R75) -/

/-- Settles O4: the rows read the bytes of the word. -/
theorem operandsAreTheirFields : Obligations.OperandsAreTheirFields := by
  intro a2 a1 a0
  have hbits : a0 &&& 1#8 &&& 0xFE#8 = 0#8 := by
    rw [BitVec.and_assoc]
    exact BitVec.and_zero
  simp [decodeCommand_commandWord, hbits]

/-- An item of 32 bits is cut into the bytes of the word. -/
theorem tableBytes_word (w : Word) : tableBytes 32 w.toNat = wordBytes w := by
  simp [tableBytes, wordBytes, List.range_succ, BitVec.extractLsb', Nat.shiftRight_eq_div_pow]

/-- An item of 32 bits is read as a command word (R76). -/
theorem decodeTableWord_word (w : Word) : decodeTableWord 32 w.toNat = some (decodeCommand w) := by
  rw [decodeTableWord, tableBytes_word, decode_wordBytes]

/-- Settles O5: by evaluation of the decoder. -/
theorem writtenWordsDecode : Obligations.WrittenWordsDecode := by
  unfold Obligations.WrittenWordsDecode
  decide

/-! ## The transmit word and the packets (R79 to R81) -/

/-- Settles O6: the transmit word's four bytes. -/
theorem transmitWordIsTheMarkedByte : Obligations.TransmitWordIsTheMarkedByte := by
  refine ⟨fun b => ?_, txMask_iff⟩
  rw [txWord_eq_commandWord]
  refine ⟨?_, ?_, extractLsb'_commandWord 0 0 1 b⟩
  · rw [commandWord, BitVec.extractLsb'_append_eq_of_le (by omega)]
    decide
  · rw [commandWord, BitVec.getLsbD_append, if_neg (by omega)]
    decide

/-- A long packet is its five header bytes, its payload and its checksum (R79). -/
theorem length_longPacketBytes (isDcs : Bool) (p : List Byte) (c : Half) :
    (longPacketBytes isDcs p c).length = 5 + p.length + 2 := by
  simp only [longPacketBytes, headerBytes, List.length_append, List.length_cons, List.length_nil, List.length_map]

/-- After the header and the payload come the checksum's two bytes, the low one first (R54, R79). -/
theorem drop_longPacketBytes (isDcs : Bool) (p : List Byte) (c : Half) :
    (longPacketBytes isDcs p c).drop (5 + p.length) = [rev8 (loByte c), rev8 (hiByte c)] := by
  rw [longPacketBytes]
  have hlen := length_longPacketBytes isDcs p c
  rw [longPacketBytes, List.length_append] at hlen
  exact List.drop_left' (Nat.add_right_cancel hlen)

/-- Settles O13: the length and the last two bytes for each checksum that R130 sends. -/
theorem longPacketLengthAndZeroChecksum : Obligations.LongPacketLengthAndZeroChecksum := by
  intro isDcs p
  refine ⟨length_longPacketBytes isDcs p, ?_, drop_longPacketBytes isDcs p _⟩
  have hzero : transmittedChecksum false p = 0 := rfl
  rw [drop_longPacketBytes, hzero]
  decide

/-- REV8 bit by bit (R100). -/
theorem getLsbD_rev8 (b : Byte) {i : Nat} (hi : i < 8) : (rev8 b).getLsbD (7 - i) = b.getLsbD i := by
  have hall : ∀ (b : Byte) (i : Fin 8), (rev8 b).getLsbD (7 - i) = b.getLsbD i := by decide
  exact hall b ⟨i, hi⟩

/-- The ECC byte is the ECC under two zero bits (R81). -/
theorem eccByte_eq_append (h : Header) : eccByte h = 0#2 ++ ecc6 h :=
  BitVec.setWidth_eq_append (by omega)

/-- Bit by bit the ECC byte is the ECC, with zeros above it (R81). -/
theorem getLsbD_eccByte (h : Header) (i : Nat) : (eccByte h).getLsbD i = (ecc6 h).getLsbD i := by
  rw [eccByte, BitVec.getLsbD_setWidth, Bool.and_eq_right_iff_imp]
  intro hbit
  have hlt := BitVec.lt_of_getLsbD hbit
  exact decide_eq_true (by omega)

/-- Settles O12: the ECC byte is the ECC under two zero bits, and REV8 reverses the bits. -/
theorem eccByteBitsOnTheWire : Obligations.EccByteBitsOnTheWire := by
  intro h
  have hwire {i : Nat} (hi : i < 8) : (rev8 (eccByte h)).getLsbD (7 - i) = (ecc6 h).getLsbD i :=
    (getLsbD_rev8 (eccByte h) hi).trans (getLsbD_eccByte h i)
  refine ⟨?_, ?_, fun i hi => hwire (by omega), ?_, ?_⟩
  · rw [eccByte_eq_append, BitVec.extractLsb'_append_eq_right]
  · rw [eccByte_eq_append, BitVec.extractLsb'_append_eq_left]
    rfl
  · exact (hwire (i := 7) (by omega)).trans (BitVec.getLsbD_of_ge _ _ (by omega))
  · exact (hwire (i := 6) (by omega)).trans (BitVec.getLsbD_of_ge _ _ (by omega))

/-! ## The start of a command (R70) -/

/-- A placed command word leaves the CORE just after its acceptance (note 6). -/
theorem withFetchWord_word (s : State) (w : Word) : s.withFetchWord 32 w.toNat =
    { latch (decodeCommand w) s with rst := false, port := .idle, timer := none } := by
  rw [State.withFetchWord, placeItem, decodeTableWord_word]

/-- Settles O28: the turn is the CORE's, with the decoded command latched. -/
theorem placedWordRunsNext : Obligations.PlacedWordRunsNext := by
  intro s w
  rw [withFetchWord_word]
  exact ⟨rfl, step_of_core rfl ⟨rfl, rfl⟩ rfl⟩

/-- The latched payload is the first `PLEN` bytes of the input (R70, R73). -/
theorem getElem?_latchedPayload {plen : Half} (buf : List Byte) (h : plen.toNat ≤ 255) {k : Nat}
    (hk : k < plen.toNat) : (latchedPayload plen buf)[k]? = some (buf.getD k 0) := by
  have hk' : k < min plen.toNat Config.payloadMax := by rw [Config.payloadMax]; omega
  simp [latchedPayload, payloadByte, hk']

/-- While a command runs, no step changes what the HOST presents or its queue (R70, R241). -/
theorem step_keeps_hostInputs {s t : State} (hst : s.st = .exec) (hstep : step s = .next t) :
    t.cmdValid = s.cmdValid ∧ t.hostIn = s.hostIn ∧ t.hostQueue = s.hostQueue := by
  rcases step_next_effects hstep with ⟨-, c, n, rfl⟩ | ⟨-, ⟨a, -, pa, n, rfl⟩ | ⟨a, -, pa, n, rfl⟩ | ⟨r, v, -, rfl⟩ |
    ⟨-, v, rd, n, rfl⟩ | ⟨w, -, -, -, tw, n, rfl⟩ | ⟨w, -, -, -, k, tw, n, rfl⟩ | ⟨-, -, -, rfl⟩ |
    ⟨-, -, -, l, -, hline⟩ | ⟨-, hidle, -⟩ | ⟨-, hidle, -⟩⟩
  on_goal 11 => simp [hst] at hidle
  on_goal 10 => simp [hst] at hidle
  on_goal 9 => rw [onlyCoreChanges_of_runLine hline]
  all_goals exact ⟨rfl, rfl, rfl⟩

/-- Settles O29: acceptance latches the inputs, and a running command keeps them. -/
theorem acceptanceLatchesTheCommand : Obligations.AcceptanceLatchesTheCommand := by
  refine ⟨fun s hrst hfree hst hvalid => ?_, fun s t hst hstep => ?_⟩
  · exact ⟨accept s, latchedPayload s.hostIn.plen s.hostIn.payload, step_of_accept hrst hfree hst hvalid, rfl,
      fun hlen => ⟨length_latchedPayload _ hlen, fun k hk => getElem?_latchedPayload _ hlen hk⟩⟩
  · obtain ⟨hvalid, hin, hqueue⟩ := step_keeps_hostInputs hst hstep
    exact ⟨hvalid, hin, hqueue, fun hrst => step_keeps_cur hrst hst hstep⟩

/-- Settles O56: the turn is the HOST's, which presents the head of its queue if there is one. -/
theorem anIdleStepPresentsTheNextCommand : Obligations.AnIdleStepPresentsTheNextCommand := by
  intro s hrst hfree hst hvalid
  rw [step_of_host hrst hfree hst hvalid]
  exact ⟨fun hq => by rw [hostStep, hq], fun c q hq => by rw [hostStep, hq]⟩

/-! ## What the moves of the outside world keep (R70, R230) -/

/-- `s` with other inputs, commands to come and answers to come. -/
def State.withInputs (s : State) (r b : Bool) (c : HostCmd) (q : List HostCmd) (p : List Bool) (v : List Word)
    (d : List Nat) : State :=
  { s with rst := r, cmdValid := b, hostIn := c, hostQueue := q, portAnswers := p, readDraws := v, timerWaits := d }

/-- A move of the outside world asserts `RST`, or changes inputs, commands to come and answers to come. -/
theorem outsideMove_cases {s t : State} (hmove : OutsideMove s t) :
    t = raiseReset s ∨ ∃ r b c q p v d, t = s.withInputs r b c q p v d := by
  cases hmove with
  | raiseReset => exact .inl rfl
  | drive | present | releaseReset | queue | answers => exact .inr ⟨_, _, _, _, _, _, _, rfl⟩

section
variable {s : State} (r b : Bool) (c : HostCmd) (q : List HostCmd) (p : List Bool) (v : List Word) (d : List Nat)

theorem ShadowInv.withInputs (h : ShadowInv s) : ShadowInv (s.withInputs r b c q p v d) :=
  ⟨h.shadow, h.saved, h.lanes⟩

theorem HandshakeInv.withInputs (h : HandshakeInv s) : HandshakeInv (s.withInputs r b c q p v d) :=
  ⟨h.saved, h.opened, h.restored⟩

theorem HandshakeOrder.withInputs (h : HandshakeOrder s) : HandshakeOrder (s.withInputs r b c q p v d) :=
  ⟨h.quiet, h.untimed, h.pending, h.polling, h.answered, h.ready, h.restoring, h.restored⟩

theorem TxInv.withInputs (h : TxInv s) : TxInv (s.withInputs r b c q p v d) :=
  ⟨h.trace, h.got, h.about, h.issued, fun hst => (h.order hst).withInputs r b c q p v d⟩

end

/-- In IDLE with no access outstanding the invariant asks something of the trace only (R238). -/
theorem TxInv.of_idle {s : State} (htrace : TxAfterReady s.trace) (hst : s.st = .idle) (hport : s.port = .idle) :
    TxInv s :=
  ⟨htrace, by simp [hport], by simp [hst], by simp [hport], by simp [hst]⟩

/-- The assertion of `RST` clears the shadow and ends the command (R230). -/
theorem shadowInv_raiseReset (s : State) : ShadowInv (raiseReset s) :=
  ⟨onlyShadowFields_zero, nofun, nofun⟩

/-- The assertion of `RST` drops the access and keeps the trace (R230 to R232). -/
theorem TxInv.raiseReset {s : State} (h : TxInv s) : TxInv (raiseReset s) := by
  obtain ⟨c, n, e⟩ := raiseReset_cases s
  rw [e]
  exact .of_idle h.trace rfl rfl

/-- Settles O58: the invariants do not speak of the inputs and the answers to come, and the reset values meet them. -/
theorem outsideMovesKeepTheInvariants : Obligations.OutsideMovesKeepTheInvariants := by
  intro s t hmove
  refine ⟨fun h => inv_outsideMove h hmove, ?_⟩
  obtain rfl | ⟨r, b, c, q, p, v, d, rfl⟩ := outsideMove_cases hmove
  · exact ⟨fun _ => shadowInv_raiseReset s, fun _ => .of_quiet (.inl rfl), fun _ => nofun, fun h => h.raiseReset⟩
  · exact ⟨fun h => h.withInputs r b c q p v d, fun h => h.withInputs r b c q p v d, id,
      fun h => h.withInputs r b c q p v d⟩

end Sys2Proof.Machine

/-! # Proofs: the primitives (spec/40_primitives.md)

REV8 (R100), the masks and columns of ECC6 (R101, R102), CRC16's byte loop, its bit-serial form and its residue (R103,
R104), and the three as commands of one step (R105, R106). -/

namespace Sys2Proof.Machine

/-! ## REV8 (R100) -/

/-- Settles O7: `getLsbD_rev8` read from the other end. -/
theorem rev8ReflectsEveryBit : Obligations.Rev8ReflectsEveryBit := by
  refine fun b => ⟨fun i hi => ?_, rev8_rev8_byte b⟩
  have hbit := getLsbD_rev8 b (i := 7 - i) (by omega)
  rwa [Nat.sub_sub_self (by omega)] at hbit

/-! ## The masks of ECC6 (R101) -/

/-- A running exclusive or is flipped once for every index whose bit is set. -/
theorem foldl_xor_eq_countP (f : Nat → Bool) (l : List Nat) (p : Bool) :
    l.foldl (fun q i => q ^^ f i) p = (p ^^ decide (l.countP f % 2 = 1)) := by
  induction l generalizing p with
  | nil => simp
  | cons i l ih =>
    rw [List.foldl_cons, ih, List.countP_cons]
    cases f i with
    | false => simp
    | true =>
      have hodd : decide ((l.countP f + 1) % 2 = 1) = !decide (l.countP f % 2 = 1) := by
        rw [← decide_not, decide_eq_decide]
        omega
      rw [if_pos rfl, hodd, Bool.xor_assoc, Bool.true_xor]

/-- The parity is 1 when the number of ones is odd (R101). -/
theorem parity_eq_true_iff (x : Header) : parity x = true ↔ (List.range 24).countP x.getLsbD % 2 = 1 := by
  rw [parity, foldl_xor_eq_countP, Bool.false_xor, decide_eq_true_iff]

/-- Bit i of the ECC is the parity under mask i (R101). -/
theorem getLsbD_ecc6 (h : Header) {i : Nat} (hi : i < 6) : (ecc6 h).getLsbD i = eccBit h i := by
  have hbits : ∀ (b0 b1 b2 b3 b4 b5 : Bool) (i : Fin 6),
      (BitVec.ofBool b5 ++ BitVec.ofBool b4 ++ BitVec.ofBool b3 ++ BitVec.ofBool b2 ++ BitVec.ofBool b1 ++
        BitVec.ofBool b0).getLsbD i = [b0, b1, b2, b3, b4, b5][i] := by decide
  rw [ecc6, hbits _ _ _ _ _ _ ⟨i, hi⟩]
  interval_cases i <;> rfl

/-- A listed mask is one of the six, and gives the ECC bit of its number (R101). -/
theorem getLsbD_ecc6_of_mask (h : Header) {i : Nat} {m : Header} (hm : eccMasks[i]? = some m) :
    i < 6 ∧ (ecc6 h).getLsbD i = parity (h &&& m) := by
  have hi : i < 6 := (List.getElem?_eq_some_iff.1 hm).1
  rw [getLsbD_ecc6 h hi, eccBit, List.getD_eq_getElem?_getD, hm]
  exact ⟨hi, rfl⟩

/-- Settles O8: the bit is a parity, and a parity counts ones. -/
theorem eccBitsAreMaskParities : Obligations.EccBitsAreMaskParities := by
  intro h i m hm
  rw [(getLsbD_ecc6_of_mask h hm).2, parity_eq_true_iff]

/-! ## The columns of ECC6 (R102) -/

/-- The exclusive or of two sequences of bits, folded, is that of the two folds. -/
theorem foldl_xor_xor (f g : Nat → Bool) (l : List Nat) (p q : Bool) :
    l.foldl (fun r i => r ^^ (f i ^^ g i)) (p ^^ q) =
      (l.foldl (fun r i => r ^^ f i) p ^^ l.foldl (fun r i => r ^^ g i) q) := by
  induction l generalizing p q with
  | nil => rfl
  | cons i l ih =>
    rw [List.foldl_cons, List.foldl_cons, List.foldl_cons, ← ih, Bool.xor_assoc, Bool.xor_assoc, Bool.xor_left_comm q]

theorem parity_xor (a b : Header) : parity (a ^^^ b) = (parity a ^^ parity b) := by
  simp only [parity, BitVec.getLsbD_xor]
  exact foldl_xor_xor a.getLsbD b.getLsbD _ false false

theorem xor_and_mask (a b m : Header) : (a ^^^ b) &&& m = (a &&& m) ^^^ (b &&& m) := by
  ext i hi
  simp [Bool.and_xor_distrib_right]

/-- ECC6 is linear (R102). -/
theorem ecc6_xor (a b : Header) : ecc6 (a ^^^ b) = ecc6 a ^^^ ecc6 b := by
  refine BitVec.eq_of_getLsbD_eq fun i hi => ?_
  simp only [BitVec.getLsbD_xor, getLsbD_ecc6 _ hi, eccBit, xor_and_mask, parity_xor]

/-- Column k is the ECC of the header whose only one is bit k (R102). -/
theorem eccColumns_eq_map : eccColumns = (List.range 24).map fun k => ecc6 (1#24 <<< k) := by decide

theorem eccColumns_nodup : eccColumns.Nodup := by decide

theorem zero_notMem_eccColumns : (0 : BitVec 6) ∉ eccColumns := by decide

theorem eccColumns_getElem? {k : Nat} (hk : k < 24) : eccColumns[k]? = some (ecc6 (1#24 <<< k)) := by
  simp [eccColumns_eq_map, hk]

/-- Bit i of column k is bit k of mask i (R102). -/
theorem getLsbD_eccColumns : ∀ k < 24, ∀ i < 6, (eccColumns.getD k 0).getLsbD i = (eccMasks.getD i 0).getLsbD k := by
  decide

/-- Flipping header bit k flips the ECC by column k (R102). -/
theorem ecc6_flip (h : Header) {k : Nat} {c : BitVec 6} (hc : eccColumns[k]? = some c) :
    ecc6 (h ^^^ (1#24 <<< k)) = ecc6 h ^^^ c := by
  have hk : k < 24 := (List.getElem?_eq_some_iff.1 hc).1
  rw [eccColumns_getElem? hk, Option.some_inj] at hc
  rw [ecc6_xor, hc]

/-- No single header bit has the ECC 0 (R102). -/
theorem ecc6_bit_ne_zero {k : Nat} (hk : k < 24) : ecc6 (1#24 <<< k) ≠ 0 :=
  ne_of_mem_of_not_mem (List.mem_of_getElem? (eccColumns_getElem? hk)) zero_notMem_eccColumns

/-- Two header bits have different ECCs (R102). -/
theorem ecc6_bit_injective {j k : Nat} (hj : j < 24) (hk : k < 24) (h : ecc6 (1#24 <<< j) = ecc6 (1#24 <<< k)) :
    j = k :=
  (List.getElem?_inj hj eccColumns_nodup).1 (by rw [eccColumns_getElem? hj, eccColumns_getElem? hk, h])

/-- A change of the header by `d` changes the ECC when the ECC of `d` is not 0. -/
theorem ecc6_xor_ne (h : Header) {d : Header} (hd : ecc6 d ≠ 0) : ecc6 (h ^^^ d) ≠ ecc6 h := by
  rw [ecc6_xor]
  exact fun heq => hd ((BitVec.xor_right_inj (ecc6 h)).1 (heq.trans BitVec.xor_zero.symm))

/-- Settles O9: by linearity a change shows as the exclusive or of its columns. -/
theorem eccColumnsDetectOneAndTwoBitChanges : Obligations.EccColumnsDetectOneAndTwoBitChanges := by
  refine ⟨fun k i c m hc hm => ?_, ecc6_xor, fun h k c => ecc6_flip h, rfl, eccColumns_nodup, zero_notMem_eccColumns,
    fun h k hk => ecc6_xor_ne h (ecc6_bit_ne_zero hk), fun h j k hj hk hne => ?_⟩
  · have hbit := getLsbD_eccColumns k (List.getElem?_eq_some_iff.1 hc).1 i (List.getElem?_eq_some_iff.1 hm).1
    have hm' : eccMasks[i]? = some m := hm
    simpa only [List.getD_eq_getElem?_getD, hc, hm', Option.getD_some] using hbit
  · rw [BitVec.xor_assoc]
    refine ecc6_xor_ne h fun hzero => hne (ecc6_bit_injective hj hk ?_)
    rw [ecc6_xor] at hzero
    exact BitVec.xor_eq_zero_iff.1 hzero

/-! ## The bit-serial CRC (R104) -/

/-- One shift of the byte loop is one shift of the generator, which takes the low bit of what was brought in (R104). -/
theorem crcShift_xor (c x : Half) : crcShift (c ^^^ x) = crcSerialBit c (x.getLsbD 0) ^^^ x >>> 1 := by
  rw [crcShift, crcSerialBit, BitVec.getLsbD_xor, BitVec.ushiftRight_xor_distrib]
  split
  · rw [BitVec.xor_assoc, BitVec.xor_assoc, BitVec.xor_comm (x >>> 1)]
  · rfl

/-- After n shifts the loop has taken the n low bits of what was brought in, and the rest of it is still to come. -/
theorem iterate_crcShift_xor (n : Nat) (c x : Half) :
    crcShift^[n] (c ^^^ x) = ((List.range n).map x.getLsbD).foldl crcSerialBit c ^^^ x >>> n := by
  induction n with
  | zero => simp
  | succ n ih =>
    have hbit : (x >>> n).getLsbD 0 = x.getLsbD n := by simp
    rw [Function.iterate_succ_apply', ih, crcShift_xor, hbit, ← BitVec.shiftRight_add, List.range_succ, List.map_append,
      List.foldl_append]
    rfl

/-- The bits of a byte are the low bits of its half-word. -/
theorem map_getLsbD_setWidth (b : Byte) : (List.range 8).map (b.setWidth 16).getLsbD = bitsLsbFirst b := by
  refine List.map_congr_left fun i hi => ?_
  have hlt := List.mem_range.1 hi
  simp [show i < 16 by omega]

/-- A byte has nothing left after eight shifts. -/
theorem setWidth_ushiftRight_eight (b : Byte) : b.setWidth 16 >>> 8 = 0#16 := by
  ext i hi
  simp

/-- The generator's eight shifts are the loop's step for one byte (R103, R104). -/
theorem foldl_bitsLsbFirst (c : Half) (b : Byte) : (bitsLsbFirst b).foldl crcSerialBit c = crcByte c b := by
  rw [crcByte, iterate_crcShift_xor, map_getLsbD_setWidth, setWidth_ushiftRight_eight, BitVec.xor_zero]

theorem crc16Serial_eq_crc16 (p : List Byte) : crc16Serial p = crc16 p := by
  simp only [crc16Serial, crc16, List.foldl_flatMap, foldl_bitsLsbFirst]

/-- Settles O10: the generator as the rule writes it is `crc16Serial`. -/
theorem bitSerialCrcAgrees : Obligations.BitSerialCrcAgrees :=
  fun p => ⟨crc16Serial_eq_crc16 p, crc16Serial_eq_crc16 p⟩

/-! ## The residue of the CRC (R103) -/

/-- While the low bits are 0 the loop only shifts. -/
theorem iterate_crcShift_of_low_zero {n : Nat} {x : Half} (h : ∀ i < n, x.getLsbD i = false) :
    crcShift^[n] x = x >>> n := by
  induction n with
  | zero => simp
  | succ n ih =>
    have hbit : (x >>> n).getLsbD 0 = false := by simpa using h n n.lt_succ_self
    rw [Function.iterate_succ_apply', ih fun i hi => h i (by omega), crcShift, hbit, BitVec.shiftRight_add]
    rfl

/-- The low byte of the checksum cancels, and the high byte is shifted down. -/
theorem crcByte_loByte (c : Half) : crcByte c (loByte c) = (hiByte c).setWidth 16 := by
  rw [crcByte, iterate_crcShift_of_low_zero fun i hi => ?_]
  · ext i hi
    have hhigh : c.getLsbD (8 + i) = true → i < 8 := fun hbit => by
      have hlt := BitVec.lt_of_getLsbD hbit
      omega
    simpa [loByte, hiByte] using hhigh
  · simp [loByte, hi, show i < 16 by omega]

/-- A byte cancels itself. -/
theorem crcByte_self (b : Byte) : crcByte (b.setWidth 16) b = 0 := by
  rw [crcByte, BitVec.xor_self]
  decide

/-- Settles O11: each byte of the checksum cancels what the loop holds of it. -/
theorem crcResidueIsZero : Obligations.CrcResidueIsZero := by
  refine ⟨rfl, fun p => ?_⟩
  calc crc16 (p ++ [loByte (crc16 p), hiByte (crc16 p)])
      = crcByte (crcByte (crc16 p) (loByte (crc16 p))) (hiByte (crc16 p)) := List.foldl_append
    _ = 0 := by rw [crcByte_loByte, crcByte_self]

/-! ## The primitives as commands (R105, R106) -/

/-- At a line that raises an error the CORE aborts (R203). -/
theorem exec_raise (i : Instr) {s : State} {m : MicroStep} {k : ErrKind} (hfree : CoreFree s)
    (hl : (programOf i s.cur)[s.upc.line]? = some ⟨m, .raise k⟩) :
    exec i s = .next { s with err := errCode k, isDone := true, st := .idle } := by
  have hport : s.port = .idle := hfree.1
  rw [exec_eq_runProgram, runProgram_of_free hfree hl]
  simp only [runLine, abort, ← hport]

/-- With too long a payload the one line of CRC16 raises InvalidLength (R103, R201). -/
theorem crc16Program_of_length_gt {c : Cur} (h : 255 < c.plen.toNat) :
    crc16Program c = [⟨.main, .raise .invalidLength⟩] := by
  have hrange : ¬ lengthInRange c.plen = true := fun hle => absurd (of_decide_eq_true hle) (Nat.not_le.2 h)
  rw [crc16Program, if_neg hrange]

/-- Settles O16: the values are O20's, and a long CRC16 raises. -/
theorem primitiveCommandsTakeOneStep : Obligations.PrimitiveCommandsTakeOneStep := by
  intro s hfree hfirst
  obtain ⟨hrev, hecc, hcrc, -⟩ := resultOnCompletion s hfree
  refine ⟨hrev hfirst, hecc hfirst, hcrc hfirst, fun hlen => ?_⟩
  exact exec_raise .crc16 (m := .main) (k := .invalidLength) hfree
    (by rw [hfirst, programOf, crc16Program_of_length_gt hlen]; rfl)

/-- Settles O17: by O16 the value is the operands', and `dsi_ctl` is not written. -/
theorem primitivesReadOnlyTheirOperands : Obligations.PrimitivesReadOnlyTheirOperands := by
  intro s u hs hu hsfirst hufirst hplen hpl hlen i hi
  obtain ⟨hrevS, heccS, hcrcS, -⟩ := primitiveCommandsTakeOneStep s hs hsfirst
  obtain ⟨hrevU, heccU, hcrcU, -⟩ := primitiveCommandsTakeOneStep u hu hufirst
  obtain rfl | ⟨b, rfl⟩ | ⟨h, rfl⟩ := hi
  · exact ⟨_, _, hcrcS hlen, hcrcU (hplen ▸ hlen), congrArg crc16 hpl, rfl, rfl⟩
  · exact ⟨_, _, hrevS b, hrevU b, rfl, rfl, rfl⟩
  · exact ⟨_, _, heccS h, heccU h, rfl, rfl, rfl⟩

end Sys2Proof.Machine

/-! # Proofs: the packet encoder (spec/41_packet_encoder.md)

The order of a handshake's accesses (R121, R238), the lines of LP_WRITE_BYTE as steps of every sender (R121, R122), the
trace of a completed packet (R131), and the bound of a wait (R122, R206). -/

namespace Sys2Proof.Machine

/-! ## The trace of a wait (R122, R238) -/

/-- A wait begins with the write it follows. -/
theorem polled_write (r : Reg) (v : Word) (tr : List Event) : Polled r (tr ++ [wEvent r v]) :=
  ⟨tr, v, [], by simp, by simp⟩

/-- A not-ready read leaves the wait going on. -/
theorem Polled.notReady {r : Reg} {tr : List Event} {x : Word} (h : Polled r tr) (hx : isReady x = false) :
    Polled r (tr ++ [rEvent x]) := by
  obtain ⟨pre, v, nots, rfl, hnots⟩ := h
  exact ⟨pre, v, nots ++ [x], by simp, List.forall_mem_append.2 ⟨hnots, List.forall_mem_singleton.2 hx⟩⟩

/-- A ready read ends the wait. -/
theorem Polled.ready {r : Reg} {tr : List Event} {x : Word} (h : Polled r tr) (hx : isReady x = true) :
    ReadySince r (tr ++ [rEvent x]) :=
  ⟨tr, x, rfl, h, hx⟩

/-- The trace's last event is a ready read. -/
def EndsReady (tr : List Event) : Prop := ∃ pre r, tr = pre ++ [r] ∧ r.isReadyRead = true

theorem ReadySince.endsReady {r : Reg} {tr : List Event} (h : ReadySince r tr) : EndsReady tr := by
  obtain ⟨tr', x, rfl, -, hx⟩ := h
  exact ⟨tr', rEvent x, rfl, hx⟩

theorem isTx_write {r : Reg} {v : Word} {ok : Bool} : (Event.write r v ok).isTx = true ↔ r = .lpTx := by
  cases r <;> simp [Event.isTx]

/-- An event may follow when it writes LP_TX only after a ready read. -/
theorem TxAfterReady.append {tr : List Event} {e : Event} (h : TxAfterReady tr)
    (he : e.isTx = true → EndsReady tr) : TxAfterReady (tr ++ [e]) := by
  intro pre x suf heq hx
  rcases List.eq_nil_or_concat suf with rfl | ⟨suf, y, rfl⟩
  · obtain ⟨rfl, hlast⟩ := List.append_inj' heq rfl
    obtain rfl : e = x := List.singleton_inj.1 hlast
    exact he hx
  · rw [List.concat_eq_append, ← List.cons_append, ← List.append_assoc] at heq
    exact h pre x suf (List.append_inj_left' heq rfl) hx

/-! ## The order of a handshake's accesses (R121, R238) -/

/-- At a line that may follow an access no wait has just ended. -/
theorem HsLine.hasWaitedAfter_of_followsAccess : ∀ {p : HsLine}, p.followsAccess = true → p.hasWaitedAfter = none
  | .setSave, _ | .wait1Clear, _ | .wait1Test, _ | .wait2Clear, _ | .wait2Test, _ => rfl

/-- While the CORE is not free its next line is one that may follow an access. -/
theorem HandshakeOrder.followsAccess {s : State} (h : HandshakeOrder s) (hfree : ¬ CoreFree s) :
    s.upc.hs.followsAccess = true := by
  by_contra hne
  exact hfree (h.quiet (Bool.eq_false_of_not_eq_true hne))

/-- With nothing outstanding the order speaks of the trace only. -/
theorem HandshakeOrder.of_free {s : State} (hfree : CoreFree s)
    (hpolled : ∀ q, s.upc.hs.waitsAfter = some q → Polled q s.trace)
    (hready : ∀ q, s.upc.hs.hasWaitedAfter = some q → ReadySince q s.trace)
    (hrestored : s.upc.hs.inSet = true → 0 < s.upc.txIdx →
      ∃ tr v, s.trace = tr ++ [wEvent .dsiCtl v] ∧ ReadySince .lpTx tr) : HandshakeOrder s := by
  obtain ⟨hport, htimer⟩ := id hfree
  exact {
    quiet := fun _ => hfree
    untimed := fun hne => absurd htimer hne
    pending := by simp [hport]
    polling := fun q hq _ => hpolled q hq
    answered := by simp [hport]
    ready := hready
    restoring := by simp [hport]
    restored := fun hset hpos _ => hrestored hset hpos }

/-- The order just after the CORE has issued a write. -/
theorem HandshakeOrder.of_write {s : State} {r : Reg} {v : Word} (hport : s.port = .req (.write r v))
    (htimer : s.timer = none) (hfollows : s.upc.hs.followsAccess = true)
    (hwaits : ∀ q, s.upc.hs.waitsAfter = some q → r = q)
    (hrestoring : s.upc.hs.inSet = true → 0 < s.upc.txIdx → r = .dsiCtl ∧ ReadySince .lpTx s.trace) :
    HandshakeOrder s where
  quiet hne := by simp [hfollows] at hne
  untimed hne := absurd htimer hne
  pending r' v' hp q hq := by
    obtain ⟨rfl, -⟩ : r = r' ∧ v = v' := by simpa [hport] using hp
    exact hwaits q hq
  polling := by simp [hport]
  answered := by simp [hport]
  ready q hq := by simp [HsLine.hasWaitedAfter_of_followsAccess hfollows] at hq
  restoring r' v' hset hpos hp := by
    obtain ⟨rfl, -⟩ : r = r' ∧ v = v' := by simpa [hport] using hp
    exact hrestoring hset hpos
  restored := by simp [hport]

/-- The order just after the CORE has issued a poll. -/
theorem HandshakeOrder.of_poll {s : State} (hport : s.port = .req .readReady) (htimer : s.timer = none)
    (hfollows : s.upc.hs.followsAccess = true) (hpolled : ∀ q, s.upc.hs.waitsAfter = some q → Polled q s.trace) :
    HandshakeOrder s where
  quiet hne := by simp [hfollows] at hne
  untimed hne := absurd htimer hne
  pending := by simp [hport]
  polling q hq _ := hpolled q hq
  answered := by simp [hport]
  ready q hq := by simp [HsLine.hasWaitedAfter_of_followsAccess hfollows] at hq
  restoring := by simp [hport]
  restored := by simp [hport]

/-- At the start of a line, with no read outstanding, the order asks nothing. -/
theorem HandshakeOrder.of_lineStart {s : State} (hhs : s.upc.hs = .setSave) (hidx : s.upc.txIdx = 0) :
    HandshakeOrder s where
  quiet := by simp [hhs, HsLine.followsAccess]
  untimed _ := ⟨hhs, hidx⟩
  pending := by simp [hhs, HsLine.waitsAfter]
  polling := by simp [hhs, HsLine.waitsAfter]
  answered := by simp [hhs, HsLine.waitsAfter]
  ready := by simp [hhs, HsLine.hasWaitedAfter]
  restoring := by simp [hidx]
  restored := by simp [hidx]

/-- The order is enough for the CORE to come to WRITE with nothing outstanding, after a ready read. -/
theorem TxInv.of_order {s : State} (htrace : TxAfterReady s.trace)
    (hgot : ∀ v, s.port = .got v → ∃ pre, s.trace = pre ++ [.read (some v)])
    (hissued : ∀ v, s.port = .req (.write .lpTx v) ∨ s.port = .atCtrl (.write .lpTx v) → EndsReady s.trace)
    (horder : s.st = .exec → HandshakeOrder s) : TxInv s where
  trace := htrace
  got := hgot
  about hst hhs := ⟨(horder hst).quiet (by rw [hhs]; rfl), ((horder hst).ready .dsiCtl (by rw [hhs]; rfl)).endsReady⟩
  issued := hissued
  order := horder

/-! ## The other agents' steps keep the order (R11, R63) -/

section
variable {s : State} (h : TxInv s)
include h

/-- The PORT carries an access on. -/
theorem TxInv.portOk {a : Access} (hp : s.port = .req a) (pa : List Bool) (n : Nat) :
    TxInv { s with port := .atCtrl a, portAnswers := pa, drawN := n } := by
  refine .of_order h.trace nofun (fun v hv => h.issued v (.inl ?_)) fun hst => ?_
  · simpa [hp] using hv
  have o := h.order hst
  have hfollows := o.followsAccess fun hfree => by simp [hfree.1] at hp
  refine ⟨by simp [hfollows], o.untimed, fun r v hv => o.pending r v (.inl ?_),
    fun q hq hport => o.polling q hq (.inr (.inl ?_)), nofun, o.ready,
    fun r v hset hpos hv => o.restoring r v hset hpos (.inl ?_), nofun⟩
  · simpa [hp] using hv
  · simpa [hp] using hport
  · simpa [hp] using hv

/-- The PORT answers `err`: the failed access enters the trace. -/
theorem TxInv.portErr {a : Access} (hp : s.port = .req a) (c : CtrlRegs) (pa : List Bool) (n : Nat) :
    TxInv { s with
      port := .failed a, portAnswers := pa, drawN := n, ctrl := c, trace := s.trace ++ [failedEvent a] } := by
  refine .of_order (h.trace.append fun htx => ?_) nofun nofun fun hst => ?_
  · cases a with
    | write r v =>
      obtain rfl := isTx_write.1 htx
      exact h.issued v (.inl hp)
    | readReady => cases htx
  have o := h.order hst
  have hfollows := o.followsAccess fun hfree => by simp [hfree.1] at hp
  exact ⟨by simp [hfollows], o.untimed, nofun, by simp, nofun,
    by simp [HsLine.hasWaitedAfter_of_followsAccess hfollows], nofun, nofun⟩

/-- The CONTROLLER performs a write: it is the trace's last event. -/
theorem TxInv.performWrite {r : Reg} {v : Word} (hp : s.port = .atCtrl (.write r v)) (c : CtrlRegs) :
    TxInv { s with ctrl := c, port := .idle, trace := s.trace ++ [.write r v true] } := by
  refine .of_order (h.trace.append fun htx => ?_) nofun nofun fun hst => ?_
  · obtain rfl := isTx_write.1 htx
    exact h.issued v (.inr hp)
  have o := h.order hst
  have hfollows := o.followsAccess fun hfree => by simp [hfree.1] at hp
  refine ⟨by simp [hfollows], o.untimed, nofun, fun q hq _ => ?_, nofun,
    by simp [HsLine.hasWaitedAfter_of_followsAccess hfollows], nofun, fun hset hpos _ => ?_⟩
  · obtain rfl := o.pending r v (.inr hp) q hq
    exact polled_write r v s.trace
  · obtain ⟨rfl, hready⟩ := o.restoring r v hset hpos (.inr hp)
    exact ⟨s.trace, v, rfl, hready⟩

/-- The CONTROLLER answers a poll: the value is that of the trace's last read. -/
theorem TxInv.performRead (hp : s.port = .atCtrl .readReady) (v : Word) (rd : List Word) (n : Nat) :
    TxInv { s with port := .got v, readDraws := rd, drawN := n, trace := s.trace ++ [.read (some v)] } := by
  refine .of_order (h.trace.append nofun) (fun x hx => ⟨s.trace, ?_⟩) nofun fun hst => ?_
  · obtain rfl : v = x := by simpa using hx
    rfl
  have o := h.order hst
  have hfollows := o.followsAccess fun hfree => by simp [hfree.1] at hp
  refine ⟨by simp [hfollows], o.untimed, nofun, by simp, fun q x hq hx => ⟨s.trace, ?_⟩,
    by simp [HsLine.hasWaitedAfter_of_followsAccess hfollows], nofun, nofun⟩
  obtain rfl : v = x := by simpa using hx
  exact ⟨rfl, o.polling q hq (.inr (.inr hp))⟩

/-- A step of the TIMER: no wait runs but at the start of a line. -/
theorem TxInv.timerStep (hport : s.port = .idle) (htimer : s.timer ≠ none) (w : Option Wait) (tw : List Nat) (n : Nat)
    {tr : List Event} (htr : TxAfterReady tr) :
    TxInv { s with timer := w, timerWaits := tw, drawN := n, trace := tr } := by
  refine .of_order htr (by simp [hport]) (by simp [hport]) fun hst => ?_
  obtain ⟨hhs, hidx⟩ := (h.order hst).untimed htimer
  exact .of_lineStart hhs hidx

end

/-! ## The CORE's lines keep the order (R121, R122) -/

/-- What only the handshake of a byte does: a write of LP_TX, and a timeout. -/
def Line.outsideHandshake : Line → Bool
  | .write r _ => decide (r ≠ .lpTx)
  | .raise k => decide (k ≠ .handshakeTimeout)
  | .send _ => true
  | .complete _ => true
  | .checkLanes _ => true
  | .checkLength _ => true
  | .setShadow _ => true
  | .orShadow _ => true
  | .writeShadow => true
  | .delay _ => true

/-- No program writes LP_TX or times out but by the handshake of a byte (R120). -/
theorem outsideHandshake_of_line {i : Instr} {c : Cur} {n : Nat} {l : ProgLine} (hl : (programOf i c)[n]? = some l) :
    l.op.outsideHandshake = true := by
  have hall : (programOf i c).all (·.op.outsideHandshake) = true := by
    cases i
    case crc16 => simp only [programOf, crc16Program]; split <;> rfl
    all_goals rfl
  exact List.all_eq_true.1 hall l (List.mem_of_getElem? hl)

/-- The order asks the same of the trace at the two lines. -/
structure SamePart (p q : HsLine) : Prop where
  waits : p.waitsAfter = q.waitsAfter
  waited : p.hasWaitedAfter = q.hasWaitedAfter
  set : p.inSet = q.inSet

section
variable {s : State} (h : TxInv s) (hst : s.st = .exec)
include h

/-- SET writes DSI_CTL, and its wait begins. -/
theorem TxInv.setWrite (hfree : CoreFree s) (v : Word) : TxInv (gotoHs .wait1Clear (issue (.write .dsiCtl v) s)) :=
  .of_order h.trace nofun (by simp) fun _ => .of_write rfl hfree.2 rfl (fun q hq => Option.some.inj hq) nofun

/-- The next line begins, with no write of LP_TX outstanding. -/
theorem TxInv.nextLine {q : PortState} (hq : q.isPoll = false)
    (hwrite : ∀ v, q ≠ .req (.write .lpTx v) ∧ q ≠ .atCtrl (.write .lpTx v)) (d : Word) (w : Option Wait) :
    TxInv (nextLine { s with dsiCtl := d, port := q, timer := w }) :=
  .of_order h.trace (fun v hv => by simp at hv; simp [hv, PortState.isPoll] at hq)
    (fun v hv => absurd hv (not_or.2 (hwrite v))) fun _ => .of_lineStart rfl rfl

/-- A command that ends or aborts leaves the trace. -/
theorem TxInv.abort (k : ErrKind) : TxInv (abort k s) := .of_idle h.trace rfl rfl

include hst

/-- The handshake goes on, with nothing outstanding, to a line of the same part of it. -/
theorem TxInv.stay (hfree : CoreFree s) {p : HsLine} (hpart : SamePart s.upc.hs p) (d v : Word) (k : Nat) :
    TxInv (gotoHs p { s with dsiCtl := d, hsSaved := v, pollN := k }) := by
  have hport := hfree.1
  have o := h.order hst
  refine .of_order h.trace (by simp [hport]) (by simp [hport]) fun _ => .of_free hfree ?_ ?_ ?_
  · exact fun q hq => o.polling q (hpart.waits.trans hq) (.inl hport)
  · exact fun q hq => o.ready q (hpart.waited.trans hq)
  · exact fun hin hpos => o.restored (hpart.set.trans hin) hpos hport

/-- A poll is issued. -/
theorem TxInv.poll (hfree : CoreFree s) {w : HsWait} (hhs : s.upc.hs = w.read) :
    TxInv (gotoHs w.test (issue .readReady s)) := by
  obtain ⟨hport, htimer⟩ := hfree
  refine .of_order h.trace nofun nofun fun _ => .of_poll rfl htimer (by cases w <;> rfl) fun q hq => ?_
  exact (h.order hst).polling q (by rw [hhs, ← hq]; cases w <;> rfl) (.inl hport)

/-- The value of a poll is tested: a ready one ends the wait, any other lets it go on. -/
theorem TxInv.test {v : Word} (hport : s.port = .got v) (htimer : s.timer = none) {w : HsWait}
    (hhs : s.upc.hs = w.test) (k : Nat) :
    (isReady v = true → TxInv (gotoHs w.ready { s with port := .idle })) ∧
    (isReady v = false → TxInv (gotoHs w.bound { s with port := .idle, pollN := k })) := by
  have hanswered {q : Reg} (hq : w.test.waitsAfter = some q) : ∃ tr, s.trace = tr ++ [rEvent v] ∧ Polled q tr :=
    (h.order hst).answered q v (by rw [hhs, hq]) hport
  refine ⟨fun hv => ?_, fun hv => ?_⟩
  · refine .of_order h.trace nofun nofun fun _ => .of_free ⟨rfl, htimer⟩ ?_ (fun q hq => ?_) ?_
    · cases w <;> nofun
    · obtain ⟨tr, htr, hpolled⟩ := hanswered (q := q) (by rw [← hq]; cases w <;> rfl)
      simpa only [gotoHs_trace, htr] using hpolled.ready hv
    · cases w <;> nofun
  · refine .of_order h.trace nofun nofun fun _ => .of_free ⟨rfl, htimer⟩ (fun q hq => ?_) ?_ ?_
    · obtain ⟨tr, htr, hpolled⟩ := hanswered (q := q) (by rw [← hq]; cases w <;> rfl)
      simpa only [gotoHs_trace, htr] using hpolled.notReady hv
    · cases w <;> nofun
    · cases w <;> nofun

/-- WRITE writes LP_TX after a ready read, and its wait begins. -/
theorem TxInv.txWrite (hhs : s.upc.hs = .txWrite) (v : Word) :
    TxInv (gotoHs .wait2Clear (issue (.write .lpTx v) s)) := by
  obtain ⟨⟨-, htimer⟩, hready⟩ := h.about hst hhs
  exact .of_order h.trace nofun (fun _ _ => hready)
    fun _ => .of_write rfl htimer rfl (fun q hq => Option.some.inj hq) nofun

/-- RESTORE writes DSI_CTL after a ready read, and the next byte or the next line begins. -/
theorem TxInv.restoreWrite (hhs : s.upc.hs = .restoreWrite) (n : Nat) (v : Word) :
    TxInv (nextByte n (issue (.write .dsiCtl v) s)) := by
  have o := h.order hst
  have hfree := o.quiet (by rw [hhs]; rfl)
  have hready := o.ready .lpTx (by rw [hhs]; rfl)
  rcases nextByte_cases n (issue (.write .dsiCtl v) s) with ⟨-, e⟩ | ⟨-, e⟩ <;> rw [e]
  · exact .of_order h.trace nofun (by simp) fun _ => .of_write rfl hfree.2 rfl nofun fun _ _ => ⟨rfl, hready⟩
  · exact .of_order h.trace nofun (by simp) fun _ => .of_lineStart rfl rfl

end

/-- A line of a handshake keeps the order (R121, R122). -/
theorem txInv_hsLine {s t : State} (hinv : Inv s) (h : TxInv s) (hst : s.st = .exec) (hw : coreWaits s = false)
    (hf : ∀ a, s.port ≠ .failed a) {b : Byte} {n : Nat} (hstep : hsLine b n s = .next t) : TxInv t := by
  have htimer := timer_eq_none_of_not_waits hw
  have hfree {p : HsLine} (hp : s.upc.hs = p) (htest : p.isTest = false) : CoreFree s :=
    hinv.coreFree hst hw hf (hp ▸ htest)
  have hstay {p : HsLine} (q : HsLine) (hp : s.upc.hs = p) (htest : p.isTest = false) (hpart : SamePart p q)
      {d v : Word} {k : Nat} : TxInv (gotoHs q { s with dsiCtl := d, hsSaved := v, pollN := k }) :=
    h.stay hst (hfree hp htest) (hp ▸ hpart) d v k
  rcases hsLine_next_cases hstep with ⟨hp, rfl⟩ | ⟨hp, rfl⟩ | ⟨hp, rfl⟩ | ⟨hp, rfl⟩ | ⟨hp, rfl⟩ |
    ⟨hp, v, hv, ⟨hr, rfl⟩ | ⟨hr, rfl⟩⟩ | ⟨-, -, rfl⟩ | ⟨hp, -, rfl⟩ | ⟨hp, rfl⟩ | ⟨hp, rfl⟩ | ⟨hp, rfl⟩ |
    ⟨hp, v, hv, ⟨hr, rfl⟩ | ⟨hr, rfl⟩⟩ | ⟨-, -, rfl⟩ | ⟨hp, -, rfl⟩ | ⟨hp, rfl⟩ | ⟨hp, rfl⟩
  · exact hstay .setShadow hp rfl ⟨rfl, rfl, rfl⟩
  · exact hstay .setWrite hp rfl ⟨rfl, rfl, rfl⟩
  · exact h.setWrite (hfree hp rfl) _
  · exact hstay .wait1Read hp rfl ⟨rfl, rfl, rfl⟩
  · exact h.poll hst (hfree hp rfl) (w := .wait1) hp
  · exact (h.test hst hv htimer (w := .wait1) hp 0).1 hr
  · exact (h.test hst hv htimer (w := .wait1) hp _).2 hr
  · exact h.abort _
  · exact hstay .wait1Read hp rfl ⟨rfl, rfl, rfl⟩
  · exact h.txWrite hst hp _
  · exact hstay .wait2Read hp rfl ⟨rfl, rfl, rfl⟩
  · exact h.poll hst (hfree hp rfl) (w := .wait2) hp
  · exact (h.test hst hv htimer (w := .wait2) hp 0).1 hr
  · exact (h.test hst hv htimer (w := .wait2) hp _).2 hr
  · exact h.abort _
  · exact hstay .wait2Read hp rfl ⟨rfl, rfl, rfl⟩
  · exact hstay .restoreWrite hp rfl ⟨rfl, rfl, rfl⟩
  · exact h.restoreWrite hst hp n _

/-- A line of a program keeps the order (R30). -/
theorem txInv_runLine {s t : State} (hinv : Inv s) (h : TxInv s) (hst : s.st = .exec) (hw : coreWaits s = false)
    (hf : ∀ a, s.port ≠ .failed a) {l : ProgLine} (hl : (programOf s.cur.instr s.cur)[s.upc.line]? = some l)
    (hstep : runLine l.op s = .next t) : TxInv t := by
  by_cases hsend : ∃ bytes, l.op = .send bytes
  · obtain ⟨bytes, hop⟩ := hsend
    rw [hop] at hstep
    obtain ⟨b, -, hline⟩ := sendLine_next hstep
    exact txInv_hsLine hinv h hst hw hf hline
  have hop : ∀ bytes, l.op ≠ .send bytes := not_exists.1 hsend
  have htest : s.upc.hs.isTest = false := by rw [(hinv.upcIn hst).hs_eq_setSave hl hop]; rfl
  obtain ⟨hport, -⟩ := hinv.coreFree hst hw hf htest
  have hnext (d : Word) (w : Option Wait) : TxInv (nextLine { s with dsiCtl := d, timer := w }) :=
    h.nextLine (q := s.port) (by rw [hport]; rfl) (by simp [hport]) d w
  have hwrite {r : Reg} (hr : r ≠ .lpTx) (v : Word) : TxInv (nextLine (issue (.write r v) s)) :=
    h.nextLine (q := .req (.write r v)) rfl (by simp [hr]) s.dsiCtl s.timer
  have houtside := outsideHandshake_of_line hl
  cases hl' : l.op <;> rw [hl'] at hstep houtside
  case send bytes => exact absurd hl' (hop bytes)
  all_goals obtain rfl := Host.Outcome.next.inj hstep
  case checkLanes n =>
    split
    · exact hnext _ _
    · exact h.abort _
  case checkLength n =>
    split
    · exact hnext _ _
    · exact h.abort _
  case setShadow v => exact hnext _ _
  case orShadow m => exact hnext _ _
  case writeShadow => exact hwrite (by decide) _
  case write r v => exact hwrite (of_decide_eq_true houtside) v
  case delay d => exact hnext _ _
  case complete r => exact .of_idle h.trace rfl hport
  case raise k => exact h.abort k

/-! ## Every step keeps the order (R238) -/

/-- Acceptance begins at the first line of a program (R70). -/
theorem TxInv.accept {s : State} (h : TxInv s) (hfree : CoreFree s) : TxInv (accept s) := by
  have hport : (Machine.accept s).port = .idle := hfree.1
  exact .of_order h.trace (by simp [hport]) (by simp [hport]) fun _ => .of_lineStart rfl rfl

/-- Every step keeps the order, whichever agent's it is. -/
theorem txInv_step {s t : State} (hinv : Inv s) (h : TxInv s) (hstep : step s = .next t) : TxInv t := by
  rcases step_next_effects hstep with ⟨-, c, n, rfl⟩ | ⟨-, ⟨a, hp, pa, n, rfl⟩ | ⟨a, hp, pa, n, rfl⟩ |
    ⟨r, v, hp, rfl⟩ | ⟨hp, v, rd, n, rfl⟩ | ⟨w, ht, -, -, tw, n, rfl⟩ | ⟨w, ht, -, -, k, tw, n, rfl⟩ |
    ⟨-, -, -, rfl⟩ | ⟨hw, hst, hf, l, hl, hline⟩ | ⟨-, hst, -, rfl⟩ | ⟨-, -, -, rfl⟩⟩
  case inl => exact .of_idle h.trace rfl rfl
  · exact h.portOk hp pa n
  · exact h.portErr hp _ pa _
  · exact h.performWrite hp _
  · exact h.performRead hp v rd n
  · exact h.timerStep (hinv.oneOutstanding (by simp [ht])) (by simp [ht]) none tw n (h.trace.append nofun)
  · exact h.timerStep (hinv.oneOutstanding (by simp [ht])) (by simp [ht]) _ tw n h.trace
  · exact h.abort _
  · exact txInv_runLine hinv h hst hw hf hl hline
  · exact h.accept (hinv.idleQuiet hst)
  · rcases hostStep_cases s with e | ⟨c, q, -, e⟩ <;> rw [e]
    · exact h
    · exact h.withInputs s.rst true c q s.portAnswers s.readDraws s.timerWaits

/-- Every reachable state meets the invariant and the order. -/
theorem txInv_reach {s : State} (hreach : Reach State.reset s) : Inv s ∧ TxInv s := by
  induction hreach with
  | start =>
    obtain ⟨hinv, -, -, -, htx⟩ := invariantsHoldAtReset
    exact ⟨hinv, htx⟩
  | step _ hstep ih => exact ⟨inv_step ih.1 hstep, txInv_step ih.1 ih.2 hstep⟩
  | outside _ hmove ih =>
    obtain ⟨hinv, -, -, -, htx⟩ := outsideMovesKeepTheInvariants _ _ hmove
    exact ⟨hinv ih.1, htx ih.2⟩

/-- Settles O48: the order is kept by every step, and says at each line what must have been answered before it. -/
theorem everyTransmitFollowsAReadyPoll : Obligations.EveryTransmitFollowsAReadyPoll := by
  refine ⟨fun s t => txInv_step, fun s hreach => ?_⟩
  obtain ⟨-, h⟩ := txInv_reach hreach
  refine ⟨h.trace, fun hst => ?_⟩
  have o := h.order hst
  have hquiet {p : HsLine} (hp : s.upc.hs = p) (hp' : p.followsAccess = false) : CoreFree s := o.quiet (hp ▸ hp')
  refine ⟨fun hp => ⟨hquiet hp rfl, o.ready _ (by rw [hp]; rfl)⟩,
    fun hp => ⟨hquiet hp rfl, o.ready _ (by rw [hp]; rfl)⟩, fun hp hpos => ?_⟩
  have hfree := hquiet hp rfl
  exact ⟨hfree, o.restored (by rw [hp]; rfl) hpos hfree.1⟩

/-! ## The lines of LP_WRITE_BYTE as steps of every sender (R121, R122) -/

/-- Where an instruction sends bytes its CORE step is the line of the handshake that `upc` names (R120, R126). -/
theorem exec_of_sendsAt {i : Instr} {s : State} {bytes : List Byte} {b : Byte} (hsends : sendsAt i s = some bytes)
    (hbyte : bytes[s.upc.txIdx]? = some b) (htimer : s.timer = none)
    (hport : s.port = .idle ∨ ∃ v, s.port = .got v) : exec i s = hsLine b bytes.length s := by
  obtain ⟨m, hl⟩ := send_line_of_sendsAt hsends
  have hline : runProgram (programOf i s.cur) s = runLine (.send bytes) s := by
    rcases hport with hp | ⟨v, hp⟩
    · exact runProgram_of_free ⟨hp, htimer⟩ hl
    · exact runProgram_of_got hp htimer hl
  rw [exec_eq_runProgram, hline]
  simp only [runLine, sendLine, hbyte]

theorem isReady_eq_false {v : Word} : isReady v = false ↔ v &&& Config.readyMask = 0 := by
  simp [isReady]

/-- The ready test with a value at hand (R122). -/
theorem pollTest_of_got {s : State} {v : Word} (hport : s.port = .got v) (ready bound : HsLine) :
    pollTest ready bound s = .next (if v &&& Config.readyMask ≠ 0 then gotoHs ready { s with port := .idle }
      else gotoHs bound { s with port := .idle, pollN := s.pollN + 1 }) := by
  simp only [pollTest, hport, isReady, bne_iff_ne]
  split <;> rfl

/-- The bound of a wait: without one the next poll, and with one the timeout after that many reads (R122, R206). -/
theorem next_pollBound {s : State} (hport : s.port = .idle) (read : HsLine) : (.next (pollBound read s) : Result) =
    match Config.hsTimeout with
    | none => .next (gotoHs read s)
    | some n =>
      if n ≤ s.pollN then .next { s with err := 2, isDone := true, st := .idle } else .next (gotoHs read s) := by
  rw [pollBound, pollBoundReached]
  cases Config.hsTimeout with
  | none => rfl
  | some n =>
    simp only [decide_eq_true_eq, abort, errCode, ← hport]
    split <;> rfl

/-- Settles O19: each clause is one line of `hsLine`. -/
theorem sendersRunTheHandshake : Obligations.SendersRunTheHandshake := by
  intro i s bytes b hsends hbyte htimer at_ timeout
  refine ⟨fun hport => ?_, fun v hport => ?_⟩
  · rw [exec_of_sendsAt hsends hbyte htimer (.inl hport)]
    refine ⟨?_, ?_, ?_, ?_, ?_, ?bound1, ?_, ?_, ?_, ?bound2, ?_, ?restore⟩ <;> intro hp
    case bound1 => exact (hsLine_bound .wait1 _ _ hp).trans (next_pollBound hport _)
    case bound2 => exact (hsLine_bound .wait2 _ _ hp).trans (next_pollBound hport _)
    case restore =>
      rw [hsLine, hp, nextByte_eq]
      rfl
    all_goals
      rw [hsLine, hp]
      rfl
  · rw [exec_of_sendsAt hsends hbyte htimer (.inr ⟨v, hport⟩)]
    exact ⟨fun hp => (hsLine_test .wait1 _ _ hp).trans (pollTest_of_got hport _ _),
      fun hp => (hsLine_test .wait2 _ _ hp).trans (pollTest_of_got hport _ _)⟩

/-! ## The bound of a wait (R122, R206) -/

section
variable {s : State} {bytes : List Byte} {b : Byte} {w : HsWait} {pa : List Bool} {rd : List Word}

/-- Not-ready reads below the bound: five steps each lead back to the read, and `poll_n` counts them (R122). -/
theorem Sending.runs_waiting {nots : List Word} (h : Sending s bytes b) (hp : s.port = .idle) (hs : s.upc.hs = w.read)
    (ha : s.portAnswers = List.replicate nots.length true ++ pa) (hd : s.readDraws = nots ++ rd)
    (hnots : ∀ v ∈ nots, isReady v = false) (hk : ∀ k ≤ nots.length, k ≠ 0 → pollBoundReached (s.pollN + k) = false) :
    Runs (5 * nots.length) s { s with
      pollN := s.pollN + nots.length, portAnswers := pa, readDraws := rd
      trace := s.trace ++ nots.map rEvent } := by
  induction nots generalizing s with
  | nil =>
    obtain rfl : s.portAnswers = pa := ha
    obtain rfl : s.readDraws = rd := hd
    rw [List.map_nil, List.append_nil]
    exact runs_zero s
  | cons v nots ih =>
    have hread := h.runs_notReady hp hs ha hd (hnots v List.mem_cons_self) (hk 1 (by simp) (by simp))
    have hbelow (k : Nat) (hle : k ≤ nots.length) (_ : k ≠ 0) : pollBoundReached (s.pollN + 1 + k) = false := by
      rw [Nat.add_assoc, Nat.add_comm 1 k]
      exact hk (k + 1) (Nat.succ_le_succ hle) k.succ_ne_zero
    have hall := runs_add hread
      (ih (h.update ..) rfl rfl rfl rfl (fun x hx => hnots x (List.mem_cons_of_mem v hx)) hbelow)
    rw [show 5 + 5 * nots.length = 5 * (v :: nots).length by simp; omega] at hall
    simpa [Nat.add_assoc, Nat.add_comm 1, ← hs, ← hp] using hall

/-- At its bound the wait times out. -/
theorem Sending.step_timeout (h : Sending s bytes b) (hp : s.port = .idle) (hs : s.upc.hs = w.bound)
    (hk : pollBoundReached s.pollN = true) : step s = .next (abort .handshakeTimeout s) := by
  rw [h.step_of_idle hp, hsLine_bound w _ _ hs, pollBound, hk]
  rfl

/-- The not-ready read that reaches the bound: five steps lead to the timeout (R122, R206). -/
theorem Sending.runs_timeout {v : Word} (h : Sending s bytes b) (hp : s.port = .idle) (hs : s.upc.hs = w.read)
    (ha : s.portAnswers = true :: pa) (hd : s.readDraws = v :: rd) (hv : isReady v = false)
    (hk : pollBoundReached (s.pollN + 1) = true) :
    Runs 5 s (abort .handshakeTimeout { s with
      upc := ⟨s.upc.line, s.upc.txIdx, w.bound⟩, pollN := s.pollN + 1, portAnswers := pa, readDraws := rd
      trace := s.trace ++ [rEvent v] }) :=
  runs_add (h.runs_read hp hs ha hd) (runs_succ ((h.update w.test _ _ _ _ _ _ _ _).step_notReady rfl rfl hv)
    (runs_one ((h.update w.bound _ _ _ _ _ _ _ _).step_timeout rfl rfl hk)))

end

/-- The bound is reached after that many reads (R122). -/
theorem pollBoundReached_eq_true {n k : Nat} (hbound : Config.hsTimeout = some n) (h : n ≤ k) :
    pollBoundReached k = true := by
  simp only [pollBoundReached, hbound, h, decide_true]

/-- A line of the handshake keeps ERR or is the abort of a timeout (R206). -/
theorem err_of_hsLine {b : Byte} {n : Nat} {s t : State} (hstep : hsLine b n s = .next t) :
    t.err = s.err ∨ t = abort .handshakeTimeout s ∧ pollBoundReached s.pollN = true := by
  rcases hsLine_next_cases hstep with ⟨-, rfl⟩ | ⟨-, rfl⟩ | ⟨-, rfl⟩ | ⟨-, rfl⟩ | ⟨-, rfl⟩ |
    ⟨-, v, -, ⟨-, rfl⟩ | ⟨-, rfl⟩⟩ | ⟨-, hk, rfl⟩ | ⟨-, -, rfl⟩ | ⟨-, rfl⟩ | ⟨-, rfl⟩ | ⟨-, rfl⟩ |
    ⟨-, v, -, ⟨-, rfl⟩ | ⟨-, rfl⟩⟩ | ⟨-, hk, rfl⟩ | ⟨-, -, rfl⟩ | ⟨-, rfl⟩ | ⟨-, rfl⟩
  on_goal 8 => exact .inr ⟨rfl, hk⟩
  on_goal 14 => exact .inr ⟨rfl, hk⟩
  on_goal 16 => rw [nextByte_eq]
  all_goals exact .inl rfl

/-- A step of the CORE keeps ERR or is an abort, of a timeout only at the bound of a wait (R203, R206). -/
theorem err_of_exec {i : Instr} {s t : State} (hstep : exec i s = .next t) :
    t.err = s.err ∨ ∃ k, t = abort k s ∧ (k = .handshakeTimeout → pollBoundReached s.pollN = true) := by
  rw [exec_eq_runProgram] at hstep
  rcases runProgram_next_cases hstep with ⟨-, rfl⟩ | ⟨-, -, rfl⟩ | ⟨-, -, l, hl, hline⟩
  · exact .inl rfl
  · exact .inr ⟨_, rfl, nofun⟩
  have houtside := outsideHandshake_of_line hl
  cases hop : l.op <;> rw [hop] at hline houtside
  case send bytes =>
    obtain ⟨b, -, hhs⟩ := sendLine_next hline
    exact (err_of_hsLine hhs).imp_right fun ⟨ht, hk⟩ => ⟨_, ht, fun _ => hk⟩
  all_goals obtain rfl := Host.Outcome.next.inj hline
  case checkLanes n =>
    split
    · exact .inl rfl
    · exact .inr ⟨_, rfl, nofun⟩
  case checkLength n =>
    split
    · exact .inl rfl
    · exact .inr ⟨_, rfl, nofun⟩
  case raise k => exact .inr ⟨k, rfl, fun hk => absurd hk (of_decide_eq_true houtside)⟩
  all_goals exact .inl rfl

/-- Without a bound no instruction raises HandshakeTimeout (R122, R206). -/
theorem exec_never_times_out (hbound : Config.hsTimeout = none) {i : Instr} {s t : State}
    (hstep : exec i s = .next t) (herr : t.err = 2) : s.err = 2 := by
  rcases err_of_exec hstep with hkeep | ⟨k, rfl, htimeout⟩
  · rw [← hkeep, herr]
  · have hk : k = .handshakeTimeout := by cases k <;> simp [errCode] at herr ⊢
    have hreached := htimeout hk
    rw [pollBoundReached_eq_false (by simp [hbound])] at hreached
    cases hreached

/-- A wait whose last read reaches the bound: five steps a read, and the timeout (R122, R206). -/
theorem Sending.runs_wait_timeout {s : State} {bytes : List Byte} {b : Byte} {w : HsWait} {nots rd : List Word}
    {pa : List Bool} (h : Sending s bytes b) (hp : s.port = .idle) (hs : s.upc.hs = w.read) (hpoll : s.pollN = 0)
    (ha : s.portAnswers = List.replicate nots.length true ++ pa) (hd : s.readDraws = nots ++ rd)
    (hnots : ∀ v ∈ nots, isReady v = false) (hne : nots ≠ []) (hbound : Config.hsTimeout = some nots.length) :
    Runs (5 * nots.length) s (abort .handshakeTimeout { s with
      upc := ⟨s.upc.line, s.upc.txIdx, w.bound⟩, pollN := nots.length, portAnswers := pa, readDraws := rd
      trace := s.trace ++ nots.map rEvent }) := by
  obtain ⟨first, v, rfl⟩ : ∃ first v, nots = first ++ [v] := ⟨_, _, (List.dropLast_append_getLast hne).symm⟩
  rw [List.length_append, List.length_singleton] at hbound
  have hfirst := h.runs_waiting (nots := first) (pa := true :: pa) (rd := v :: rd) hp hs
    (by rw [ha, List.length_append, List.replicate_add, List.append_assoc]; rfl)
    (by rw [hd, List.append_assoc]; rfl) (fun x hx => hnots x (List.mem_append_left _ hx))
    (fun k hle _ => pollBoundReached_eq_false fun n hn => by
      obtain rfl : first.length + 1 = n := Option.some.inj (hbound.symm.trans hn)
      omega)
  have hlast := Sending.runs_timeout (s := { s with
      pollN := s.pollN + first.length, portAnswers := true :: pa, readDraws := v :: rd
      trace := s.trace ++ first.map rEvent }) (w := w) ⟨h.rst, h.st, h.timer, h.sends, h.byte⟩ hp hs rfl rfl
    (hnots v (by simp)) (pollBoundReached_eq_true hbound (by simp [hpoll]))
  have hall := runs_add hfirst hlast
  rw [show 5 * first.length + 5 = 5 * (first ++ [v]).length by simp; omega] at hall
  simpa [hpoll] using hall

/-- Settles O54: the wait's reads one after the other, and at the bound the timeout. -/
theorem aWaitPollsUntilItsBound : Obligations.AWaitPollsUntilItsBound := by
  refine ⟨?_, ?_⟩
  · intro s bytes b read nots rd pa hrst hst hfree hsends hbyte hread hhs hpoll hnots hne ha hd waiting timedOut
    have hsending : Sending s bytes b := ⟨hrst, hst, hfree.2, hsends, hbyte⟩
    have hnots' (v : Word) (hv : v ∈ nots) : isReady v = false := isReady_eq_false.2 (hnots v hv)
    obtain ⟨w, rfl⟩ : ∃ w : HsWait, read = w.read :=
      hread.elim (fun hr => ⟨.wait1, hr⟩) (fun hr => ⟨.wait2, hr⟩)
    have hwaiting (hbelow : ∀ n, Config.hsTimeout = some n → nots.length < n) : Runs (5 * nots.length) s waiting := by
      have hruns := hsending.runs_waiting hfree.1 hhs ha hd hnots' fun k hle _ =>
        pollBoundReached_eq_false fun n hn => by have := hbelow n hn; omega
      rwa [hpoll, Nat.zero_add] at hruns
    split
    · next hbound => exact hwaiting (by simp [hbound])
    · next n hbound =>
      refine ⟨fun hlt => hwaiting (by simpa [hbound] using hlt), fun hlen => ?_⟩
      have hruns := hsending.runs_wait_timeout hfree.1 hhs hpoll ha hd hnots' hne (hlen ▸ hbound)
      have hupc : w.bound = if w.read = .wait1Read then .wait1Bound else .wait2Bound := by cases w <;> rfl
      rwa [hupc, abort, ← hfree.1] at hruns
  · split
    · next hbound => exact fun i s t hstep => exec_never_times_out hbound hstep
    · trivial

/-! ## What a packet adds to the trace (R131) -/

section
variable (v : Word) (r1 r2 : List Word) (b : Byte)

/-- A handshake writes LP_TX once. -/
theorem countP_isTx_handshakeTrace : (handshakeTrace v r1 r2 b).countP Event.isTx = 1 := by
  have hreads (r : List Word) : (r.map rEvent).countP Event.isTx = 0 := by simp [Event.isTx, rEvent]
  simp [handshakeTrace, List.countP_append, List.countP_cons, hreads, Event.isTx, wEvent]

/-- A handshake reads at READY_OFF in its two waits only. -/
theorem countP_isRead_handshakeTrace : (handshakeTrace v r1 r2 b).countP Event.isRead = r1.length + r2.length := by
  have hreads (r : List Word) : (r.map rEvent).countP Event.isRead = r.length := by
    simp [List.countP_map, Function.comp_def, Event.isRead, rEvent]
  simp [handshakeTrace, List.countP_append, hreads, Event.isRead, wEvent]

/-- A handshake writes DSI_CTL at SET and at RESTORE. -/
theorem filterMap_shadowValue_handshakeTrace :
    (handshakeTrace v r1 r2 b).filterMap Event.shadowValue = [v ||| Config.lpSendMask, v] := by
  have hreads (r : List Word) : (r.map rEvent).filterMap Event.shadowValue = [] := by
    simp [List.filterMap_map, Function.comp_def, Event.shadowValue, rEvent]
  simp [handshakeTrace, List.filterMap_cons, hreads, Event.shadowValue, wEvent]

end

/-- A wait that ends ready reads at least once, and at most as often as its bound says (R122). -/
theorem WaitEndsReady.length_bounds {reads : List Word} (h : WaitEndsReady reads) :
    1 ≤ reads.length ∧ ∀ n, Config.hsTimeout = some n → reads.length ≤ n := by
  obtain ⟨nots, r, rfl, -, -, hbound⟩ := h
  refine ⟨by simp, fun n hn => ?_⟩
  rw [hn] at hbound
  simpa using hbound

section
variable {v : Word} {polls : Polls} {bytes : List Byte} (hlen : polls.length = bytes.length)
include hlen

theorem countP_isTx_packetTrace : (packetTrace v polls bytes).countP Event.isTx = bytes.length := by
  simp [packetTrace, List.countP_flatMap, Function.comp_def, countP_isTx_handshakeTrace, hlen]

theorem filterMap_shadowValue_packetTrace : (packetTrace v polls bytes).filterMap Event.shadowValue =
    (List.replicate bytes.length [v ||| Config.lpSendMask, v]).flatten := by
  simp only [packetTrace, List.filterMap_flatMap, filterMap_shadowValue_handshakeTrace]
  simp [List.flatMap_def, hlen]

/-- Each byte's two waits read at least once each, and at most as often as the bound says (R122, R131). -/
theorem countP_isRead_packetTrace (hends : PollsEndReady polls) :
    2 * bytes.length ≤ (packetTrace v polls bytes).countP Event.isRead ∧
    ∀ n, Config.hsTimeout = some n → (packetTrace v polls bytes).countP Event.isRead ≤ 2 * n * bytes.length := by
  have hcount : (packetTrace v polls bytes).countP Event.isRead =
      ((bytes.zip polls).map fun bp => bp.2.1.length + bp.2.2.length).sum := by
    simp [packetTrace, List.countP_flatMap, Function.comp_def, countP_isRead_handshakeTrace]
  have hwaits {bp : Byte × List Word × List Word} (hbp : bp ∈ bytes.zip polls) :
      WaitEndsReady bp.2.1 ∧ WaitEndsReady bp.2.2 := hends bp.2 (List.of_mem_zip hbp).2
  have hzip : ((bytes.zip polls).map fun bp => bp.2.1.length + bp.2.2.length).length = bytes.length := by simp [hlen]
  rw [hcount, ← hzip]
  refine ⟨?_, fun n hn => ?_⟩
  · rw [Nat.mul_comm]
    refine List.card_nsmul_le_sum _ 2 fun x hx => ?_
    obtain ⟨bp, hbp, rfl⟩ := List.mem_map.1 hx
    obtain ⟨h1, h2⟩ := hwaits hbp
    have := h1.length_bounds.1
    have := h2.length_bounds.1
    omega
  · rw [Nat.mul_comm]
    refine List.sum_le_card_nsmul _ (2 * n) fun x hx => ?_
    obtain ⟨bp, hbp, rfl⟩ := List.mem_map.1 hx
    obtain ⟨h1, h2⟩ := hwaits hbp
    have := h1.length_bounds.2 n hn
    have := h2.length_bounds.2 n hn
    omega

end

/-- The handshake of the next byte is the next part of the packet's trace. -/
theorem packetTrace_concat {v : Word} {polls : Polls} {bytes : List Byte} {b : Byte}
    (hb : bytes[polls.length]? = some b) (p : List Word × List Word) :
    packetTrace v (polls ++ [p]) bytes = packetTrace v polls bytes ++ handshakeTrace v p.1 p.2 b := by
  induction polls generalizing bytes with
  | nil =>
    cases bytes with
    | nil => cases hb
    | cons c bytes =>
      obtain rfl : c = b := Option.some.inj hb
      simp [packetTrace]
  | cons q polls ih =>
    cases bytes with
    | nil => cases hb
    | cons c bytes =>
      have hrest : packetTrace v (polls ++ [p]) bytes = packetTrace v polls bytes ++ handshakeTrace v p.1 p.2 b :=
        ih hb
      calc packetTrace v (q :: (polls ++ [p])) (c :: bytes)
          = handshakeTrace v q.1 q.2 c ++ packetTrace v (polls ++ [p]) bytes := rfl
        _ = packetTrace v (q :: polls) (c :: bytes) ++ handshakeTrace v p.1 p.2 b := by
          rw [hrest, ← List.append_assoc]
          rfl

/-! ## Where a running packet stands (R121, R126) -/

/-- `done` is the trace as the CORE knows it: with the write that is on its way, and without the value of a poll that is
yet to be tested. -/
def Settled (port : PortState) (tr done : List Event) : Prop :=
  match port with
  | .idle => done = tr
  | .req (.write r v) => done = tr ++ [wEvent r v]
  | .req .readReady => done = tr
  | .atCtrl (.write r v) => done = tr ++ [wEvent r v]
  | .atCtrl .readReady => done = tr
  | .got v => tr = done ++ [rEvent v]
  | .failed _ => True

/-- A count of not-ready reads is below the bound, if there is one (R122). -/
def BelowBound (k : Nat) : Prop := ∀ n, Config.hsTimeout = some n → k < n

theorem pollBoundReached_eq_false_iff {k : Nat} : pollBoundReached k = false ↔ BelowBound k := by
  refine ⟨fun h n hn => ?_, pollBoundReached_eq_false⟩
  by_contra hle
  rw [pollBoundReached_eq_true hn (Nat.not_lt.1 hle)] at h
  cases h

theorem belowBound_zero : BelowBound 0 := fun _ hn => hsTimeout_pos hn

/-- A ready read ends a wait that is below its bound. -/
theorem waitEndsReady_concat {nots : List Word} {r : Word} (hnots : ∀ x ∈ nots, isReady x = false)
    (hr : isReady r = true) (hbelow : BelowBound nots.length) : WaitEndsReady (nots ++ [r]) := by
  refine ⟨nots, r, rfl, hnots, hr, ?_⟩
  split
  · trivial
  · next n hn => exact hbelow n hn

section
variable (v : Word) (b : Byte) (w : HsWait)

/-- `done` is what the handshake of byte `b`, begun with `dsi_ctl` = `v`, has done when the wait begins. -/
def HsWait.BeginsAt (done : List Event) : Prop :=
  match w with
  | .wait1 => done = [wEvent .dsiCtl (v ||| Config.lpSendMask)]
  | .wait2 => ∃ r1, WaitEndsReady r1 ∧
      done = [wEvent .dsiCtl (v ||| Config.lpSendMask)] ++ r1.map rEvent ++ [wEvent .lpTx (txWord b)]

/-- `done` is what it has done after `k` not-ready reads of the wait. -/
def HsWait.PollsTo (k : Nat) (done : List Event) : Prop :=
  ∃ (before : List Event) (nots : List Word), w.BeginsAt v b before ∧ (∀ x ∈ nots, isReady x = false) ∧
    k = nots.length ∧ done = before ++ nots.map rEvent

/-- `done` is what it has done when the wait has ended ready. -/
def HsWait.EndsAt (done : List Event) : Prop :=
  ∃ (before : List Event) (reads : List Word), w.BeginsAt v b before ∧ WaitEndsReady reads ∧
    done = before ++ reads.map rEvent

end

section
variable {v : Word} {b : Byte} {w : HsWait} {done : List Event}

theorem HsWait.BeginsAt.pollsTo (h : w.BeginsAt v b done) : w.PollsTo v b 0 done :=
  ⟨done, [], h, nofun, rfl, by simp⟩

theorem HsWait.PollsTo.notReady {k : Nat} {x : Word} (h : w.PollsTo v b k done) (hx : isReady x = false) :
    w.PollsTo v b (k + 1) (done ++ [rEvent x]) := by
  obtain ⟨before, nots, hbegins, hnots, rfl, rfl⟩ := h
  have hnots' := List.forall_mem_append.2 ⟨hnots, List.forall_mem_singleton.2 hx⟩
  exact ⟨before, nots ++ [x], hbegins, hnots', by simp, by simp⟩

theorem HsWait.PollsTo.ready {k : Nat} {x : Word} (h : w.PollsTo v b k done) (hbelow : BelowBound k)
    (hx : isReady x = true) : w.EndsAt v b (done ++ [rEvent x]) := by
  obtain ⟨before, nots, hbegins, hnots, rfl, rfl⟩ := h
  exact ⟨before, nots ++ [x], hbegins, waitEndsReady_concat hnots hx hbelow, by simp⟩

/-- After WAIT1 the byte is written to LP_TX, and WAIT2 begins. -/
theorem HsWait.EndsAt.write (h : HsWait.wait1.EndsAt v b done) :
    HsWait.wait2.BeginsAt v b (done ++ [wEvent .lpTx (txWord b)]) := by
  obtain ⟨before, reads, rfl, hends, rfl⟩ := h
  exact ⟨reads, hends, rfl⟩

/-- After WAIT2 the shadow is restored, and the handshake is complete. -/
theorem HsWait.EndsAt.restore (h : HsWait.wait2.EndsAt v b done) : ∃ r1 r2, WaitEndsReady r1 ∧ WaitEndsReady r2 ∧
    done ++ [wEvent .dsiCtl v] = handshakeTrace v r1 r2 b := by
  obtain ⟨before, r2, ⟨r1, hends1, rfl⟩, hends2, rfl⟩ := h
  exact ⟨r1, r2, hends1, hends2, rfl⟩

end

/-- Where the handshake of byte `b`, begun with `dsi_ctl` = `v`, stands at line `p` with the shadow, `hs_saved` and
`poll_n` as given, when its accesses so far are `done` (R121, R122). -/
inductive HsPos (v : Word) (b : Byte) (p : HsLine) (shadow saved : Word) (k : Nat) (done : List Event) : Prop where
  | save (line : p = .setSave) (hshadow : shadow = v) (hdone : done = [])
  | set (line : p = .setShadow) (hshadow : shadow = v) (hsaved : saved = v) (hdone : done = [])
  | write (line : p = .setWrite) (hshadow : shadow = v ||| Config.lpSendMask) (hsaved : saved = v) (hdone : done = [])
  | clear (w : HsWait) (line : p = w.clear) (hsaved : saved = v) (begins : w.BeginsAt v b done)
  | read (w : HsWait) (line : p = w.read) (hsaved : saved = v) (polls : w.PollsTo v b k done) (below : BelowBound k)
  | test (w : HsWait) (line : p = w.test) (hsaved : saved = v) (polls : w.PollsTo v b k done) (below : BelowBound k)
  | bound (w : HsWait) (line : p = w.bound) (hsaved : saved = v) (polls : w.PollsTo v b k done)
  | ready (w : HsWait) (line : p = w.ready) (hsaved : saved = v) (ends : w.EndsAt v b done)
  | restore (line : p = .restoreWrite) (hshadow : shadow = v) (ends : HsWait.wait2.EndsAt v b done)

/-- What a line of that handshake can do, when the trace that the CORE knew before the byte is `base`. -/
inductive HsOutcome (v : Word) (b : Byte) (n : Nat) (base : List Event) (s t : State) : Prop where
  | goesOn (p : HsLine) (d saved : Word) (k : Nat) (q : PortState) (done : List Event)
      (next : t = gotoHs p { s with dsiCtl := d, hsSaved := saved, pollN := k, port := q })
      (pos : HsPos v b p d saved k done) (settled : Settled q s.trace (base ++ done))
      (poll : q.isPoll = true → p.isTest = true)
  | timesOut (next : t = abort .handshakeTimeout s)
  | ends (r1 r2 : List Word) (ends1 : WaitEndsReady r1) (ends2 : WaitEndsReady r2) (shadow : s.dsiCtl = v)
      (next : t = nextByte n (issue (.write .dsiCtl v) s))
      (trace : s.trace ++ [wEvent .dsiCtl v] = base ++ handshakeTrace v r1 r2 b)

/-- A line of the handshake leads on in it, to a timeout or to its end (R121, R122). -/
theorem HsPos.outcome {v : Word} {b : Byte} {n : Nat} {base done : List Event} {s t : State}
    (pos : HsPos v b s.upc.hs s.dsiCtl s.hsSaved s.pollN done) (hport : s.port = .idle ∨ ∃ x, s.port = .got x)
    (hpoll : s.port.isPoll = true → s.upc.hs.isTest = true) (hsettled : Settled s.port s.trace (base ++ done))
    (hstep : hsLine b n s = .next t) : HsOutcome v b n base s t := by
  have hidle {p : HsLine} (hp : s.upc.hs = p) (htest : p.isTest = false) : s.port = .idle :=
    hport.resolve_right fun ⟨x, hgot⟩ => by
      have := hpoll (by rw [hgot]; rfl)
      simp [hp, htest] at this
  have htrace {p : HsLine} (hp : s.upc.hs = p) (htest : p.isTest = false) : base ++ done = s.trace := by
    rwa [hidle hp htest] at hsettled
  have hstay {p q : HsLine} (hp : s.upc.hs = p) (htest : p.isTest = false) {d saved : Word} {k : Nat}
      (pos' : HsPos v b q d saved k done) :
      HsOutcome v b n base s (gotoHs q { s with dsiCtl := d, hsSaved := saved, pollN := k }) :=
    .goesOn q d saved k s.port done rfl pos' hsettled (by rw [hidle hp htest]; nofun)
  cases pos with
  | save line hshadow hdone =>
    rw [hsLine, line] at hstep
    obtain rfl := Host.Outcome.next.inj hstep
    exact hstay line rfl (.set rfl hshadow hshadow hdone)
  | set line hshadow hsaved hdone =>
    rw [hsLine, line] at hstep
    obtain rfl := Host.Outcome.next.inj hstep
    exact hstay line rfl (.write rfl (by rw [hshadow]) hsaved hdone)
  | write line hshadow hsaved hdone =>
    rw [hsLine, line, hshadow] at hstep
    obtain rfl := Host.Outcome.next.inj hstep
    have htr := htrace line rfl
    rw [hdone, List.append_nil] at htr
    exact .goesOn _ _ _ _ (.req (.write .dsiCtl (v ||| Config.lpSendMask))) [wEvent .dsiCtl (v ||| Config.lpSendMask)]
      rfl (.clear .wait1 rfl hsaved rfl) (by rw [htr]; rfl) nofun
  | clear w line hsaved begins =>
    rw [hsLine_clear w _ _ line] at hstep
    obtain rfl := Host.Outcome.next.inj hstep
    exact hstay line (by cases w <;> rfl) (.read w rfl hsaved begins.pollsTo belowBound_zero)
  | read w line hsaved polls below =>
    rw [hsLine_read w _ _ line] at hstep
    obtain rfl := Host.Outcome.next.inj hstep
    exact .goesOn _ _ _ _ (.req .readReady) done rfl (.test w rfl hsaved polls below)
      (htrace line (by cases w <;> rfl)) (fun _ => by cases w <;> rfl)
  | test w line hsaved polls below =>
    rw [hsLine_test w _ _ line] at hstep
    obtain ⟨x, hx, ⟨hready, rfl⟩ | ⟨hnot, rfl⟩⟩ := pollTest_next_cases hstep <;>
      rw [hx, Settled, List.append_assoc] at hsettled
    · exact .goesOn _ _ _ _ .idle _ rfl (.ready w rfl hsaved (polls.ready below hready)) hsettled.symm nofun
    · exact .goesOn _ _ _ _ .idle _ rfl (.bound w rfl hsaved (polls.notReady hnot)) hsettled.symm nofun
  | bound w line hsaved polls =>
    rw [hsLine_bound w _ _ line] at hstep
    obtain rfl := Host.Outcome.next.inj hstep
    rcases pollBound_cases w.read s with ⟨-, e⟩ | ⟨hk, e⟩ <;> rw [e]
    · exact .timesOut rfl
    · exact hstay line (by cases w <;> rfl) (.read w rfl hsaved polls (pollBoundReached_eq_false_iff.1 hk))
  | ready w line hsaved ends =>
    have htr := htrace line (by cases w <;> rfl)
    rw [hsLine, line] at hstep
    cases w with
    | wait1 =>
      obtain rfl := Host.Outcome.next.inj hstep
      exact .goesOn _ _ _ _ (.req (.write .lpTx (txWord b))) _ rfl (.clear .wait2 rfl hsaved ends.write)
        (by rw [← List.append_assoc, htr]; rfl) nofun
    | wait2 =>
      obtain rfl := Host.Outcome.next.inj hstep
      exact hstay line rfl (.restore rfl hsaved ends)
  | restore line hshadow ends =>
    obtain ⟨r1, r2, ends1, ends2, hdone⟩ := ends.restore
    rw [hsLine, line, hshadow] at hstep
    obtain rfl := Host.Outcome.next.inj hstep
    exact .ends r1 r2 ends1 ends2 hshadow rfl (by rw [← htrace line rfl, List.append_assoc, hdone])

/-- Where the packet of `i`, begun with `dsi_ctl` = `v`, stands when its accesses so far are `added` (R126, R129). -/
inductive PacketPos (i : Instr) (v : Word) (bytes : List Byte) (u : Upc) (shadow saved : Word) (k : Nat)
    (added : List Event) : Prop where
  | check (checks : Instr.checksLength i = true) (upc : u = Upc.first) (hshadow : shadow = v) (hadded : added = [])
  | byte (polls : Polls) (b : Byte) (done : List Event) (line : u.line = sendLineOf i) (idx : polls.length = u.txIdx)
      (ends : PollsEndReady polls) (hb : bytes[u.txIdx]? = some b) (pos : HsPos v b u.hs shadow saved k done)
      (hadded : added = packetTrace v polls bytes ++ done)
  | sent (polls : Polls) (line : u.line = sendLineOf i + 1) (hs : u.hs = .setSave) (len : polls.length = bytes.length)
      (ends : PollsEndReady polls) (hadded : added = packetTrace v polls bytes)

/-- The command that began with the trace `tr` and `dsi_ctl` = `v` is sending its packet, and has raised no error. -/
structure PacketRun (i : Instr) (v : Word) (bytes : List Byte) (tr : List Event) (s : State) : Prop where
  rst : s.rst = false
  st : s.st = .exec
  timer : s.timer = none
  err : s.err = 0
  instr : s.cur.instr = i
  wire : wireBytes i s.cur = some bytes
  poll : s.port.isPoll = true → s.upc.hs.isTest = true
  progress : ∃ added, Settled s.port s.trace (tr ++ added) ∧
    PacketPos i v bytes s.upc s.dsiCtl s.hsSaved s.pollN added

/-- The command has ended: with an error, or with its packet in the trace. -/
def PacketEnded (v : Word) (bytes : List Byte) (tr : List Event) (t : State) : Prop :=
  t.st = .idle ∧ (t.err ≠ 0 ∨ ∃ polls, polls.length = bytes.length ∧ PollsEndReady polls ∧
    t.trace = tr ++ packetTrace v polls bytes)

/-- Every error has a code other than 0 (R200). -/
theorem errCode_ne_zero (k : ErrKind) : errCode k ≠ 0 := by
  cases k <;> decide

theorem packetEnded_abort {v : Word} {bytes : List Byte} {tr : List Event} (k : ErrKind) (s : State) :
    PacketEnded v bytes tr (abort k s) :=
  ⟨rfl, .inl (errCode_ne_zero k)⟩

section
variable {i : Instr} {v : Word} {bytes : List Byte} {tr : List Event} {s t : State}

/-- A packet has a first byte, whose handshake begins with the send line (R126). -/
theorem packetPos_start (hwire : wireBytes i s.cur = some bytes) (saved : Word) (k : Nat) :
    PacketPos i v bytes ⟨sendLineOf i, 0, .setSave⟩ v saved k [] := by
  obtain ⟨b, rest, rfl⟩ := List.exists_cons_of_ne_nil (wireBytes_ne_nil hwire)
  exact .byte [] b [] rfl rfl nofun rfl (.save rfl rfl rfl) (by simp [packetTrace])

/-- After its acceptance the command is at its length check or at its first byte (R126, R129). -/
theorem Started.packetRun (h : Started i s) (hwire : wireBytes i s.cur = some bytes) :
    PacketRun i s.dsiCtl bytes s.trace s := by
  obtain ⟨hport, htimer⟩ := h.free
  have hsettled : Settled s.port s.trace (s.trace ++ []) := by rw [hport]; exact List.append_nil _
  refine ⟨h.rst, h.st, htimer, h.err, h.instr, hwire, by rw [hport]; nofun, [], hsettled, ?_⟩
  rw [h.first]
  cases hchecks : Instr.checksLength i with
  | true => exact .check hchecks rfl rfl rfl
  | false =>
    have hline : sendLineOf i = 0 := by simp [sendLineOf, hchecks]
    have hstart := packetPos_start (v := s.dsiCtl) hwire s.hsSaved s.pollN
    rwa [hline] at hstart

variable (h : PacketRun i v bytes tr s)
include h

/-- The steps of the PORT and the CONTROLLER change nothing that the CORE knows (R63). -/
theorem PacketRun.portChange {q : PortState} {tr' : List Event} (c : CtrlRegs) (pa : List Bool) (rd : List Word)
    (n : Nat) (hpoll : q.isPoll = true → s.port.isPoll = true)
    (hsettled : ∀ done, Settled s.port s.trace done → Settled q tr' done) : PacketRun i v bytes tr { s with
      port := q, ctrl := c, portAnswers := pa, readDraws := rd, drawN := n, trace := tr' } := by
  obtain ⟨added, hs, pos⟩ := h.progress
  exact ⟨h.rst, h.st, h.timer, h.err, h.instr, h.wire, fun hq => h.poll (hpoll hq), added, hsettled _ hs, pos⟩

/-- A step of the PORT (R11). -/
theorem PacketRun.portStep {a : Access} (hp : s.port = .req a) : PacketRun i v bytes tr (portStep s) := by
  rcases portStep_cases hp with ⟨pa, n, e⟩ | ⟨pa, n, e⟩ <;> rw [e]
  · exact h.portChange _ _ _ _ (by rw [hp]; cases a <;> exact id) (by rw [hp]; cases a <;> exact fun _ => id)
  · exact h.portChange _ _ _ _ nofun fun _ _ => trivial

/-- A step of the CONTROLLER (R11). -/
theorem PacketRun.controllerStep {a : Access} (hp : s.port = .atCtrl a) :
    PacketRun i v bytes tr (controllerStep s) := by
  rcases controllerStep_cases hp with ⟨r, x, rfl, e⟩ | ⟨rfl, x, rd, n, e⟩ <;> rw [e]
  · exact h.portChange _ _ _ _ nofun (by rw [hp]; exact fun _ => id)
  · refine h.portChange _ _ _ _ (by rw [hp]; exact id) fun done hdone => ?_
    rw [hp, Settled] at hdone
    rw [hdone]
    rfl

/-- A line of the handshake of the byte `upc` names goes on with the packet or ends it with a timeout (R121, R126). -/
theorem PacketRun.byteStep {polls : Polls} {b : Byte} {done : List Event}
    (hport : s.port = .idle ∨ ∃ x, s.port = .got x) (hline : s.upc.line = sendLineOf i)
    (hidx : polls.length = s.upc.txIdx) (hends : PollsEndReady polls) (hb : bytes[s.upc.txIdx]? = some b)
    (hpos : HsPos v b s.upc.hs s.dsiCtl s.hsSaved s.pollN done)
    (hsettled : Settled s.port s.trace (tr ++ (packetTrace v polls bytes ++ done))) (hstep : step s = .next t) :
    PacketRun i v bytes tr t ∨ PacketEnded v bytes tr t := by
  have hsends : sendsAt s.cur.instr s = some bytes := by
    rw [h.instr]
    exact sendsAt_sendLine h.wire hline
  have hrun : step s = hsLine b bytes.length s := by
    have hsending : Sending s bytes b := ⟨h.rst, h.st, h.timer, hsends, hb⟩
    rcases hport with hp | ⟨x, hp⟩
    · exact hsending.step_of_idle hp
    · exact hsending.step_of_got hp
  rw [← List.append_assoc] at hsettled
  cases hpos.outcome hport h.poll hsettled (hrun.symm.trans hstep) with
  | goesOn p d saved k q done' next pos settled poll =>
    subst next
    rw [List.append_assoc] at settled
    exact .inl ⟨h.rst, h.st, h.timer, h.err, h.instr, h.wire, poll, _, settled,
      .byte polls b done' hline hidx hends hb pos rfl⟩
  | timesOut next => exact .inr (next ▸ packetEnded_abort _ _)
  | ends r1 r2 ends1 ends2 shadow next trace =>
    subst next
    rw [List.append_assoc, ← packetTrace_concat (hidx ▸ hb) (r1, r2)] at trace
    have hends' : PollsEndReady (polls ++ [(r1, r2)]) :=
      List.forall_mem_append.2 ⟨hends, List.forall_mem_singleton.2 ⟨ends1, ends2⟩⟩
    have hidx' : (polls ++ [(r1, r2)]).length = s.upc.txIdx + 1 := by rw [List.length_append, hidx]; rfl
    obtain ⟨hlt, -⟩ := List.getElem?_eq_some_iff.1 hb
    left
    rcases nextByte_cases bytes.length (issue (.write .dsiCtl v) s) with ⟨hmore, e⟩ | ⟨hlast, e⟩ <;> rw [e]
    · exact ⟨h.rst, h.st, h.timer, h.err, h.instr, h.wire, nofun, _, trace.symm,
        .byte (polls ++ [(r1, r2)]) bytes[s.upc.txIdx + 1] [] hline hidx' hends' (List.getElem?_eq_getElem hmore)
          (.save rfl shadow rfl) (List.append_nil _).symm⟩
    · exact ⟨h.rst, h.st, h.timer, h.err, h.instr, h.wire, nofun, _, trace.symm,
        .sent (polls ++ [(r1, r2)]) (congrArg (· + 1) hline) rfl (hidx'.trans (Nat.le_antisymm hlt hlast)) hends' rfl⟩

/-- At a line that tests no poll the CORE has nothing outstanding. -/
theorem PacketRun.free (hport : s.port = .idle ∨ ∃ x, s.port = .got x) (htest : s.upc.hs.isTest = false) :
    CoreFree s := by
  refine ⟨hport.resolve_right fun ⟨x, hgot⟩ => ?_, h.timer⟩
  have := h.poll (by rw [hgot]; rfl)
  simp [htest] at this

/-- A step of the CORE with its access answered goes on with the packet or ends the command. -/
theorem PacketRun.coreStep (hport : s.port = .idle ∨ ∃ x, s.port = .got x) (hstep : step s = .next t) :
    PacketRun i v bytes tr t ∨ PacketEnded v bytes tr t := by
  obtain ⟨added, hsettled, pos⟩ := h.progress
  cases pos with
  | check checks upc hshadow hadded =>
    have hfree := h.free hport (by rw [upc]; rfl)
    have hl : (programOf i s.cur)[s.upc.line]? = some ⟨.main, .checkLength s.cur.plen⟩ := by
      rw [upc]; exact checkLength_line checks s.cur
    rw [step_of_core h.rst hfree h.st, h.instr, exec_eq_runProgram, runProgram_of_free hfree hl] at hstep
    obtain rfl := Host.Outcome.next.inj hstep
    have hline : sendLineOf i = 1 := by simp [sendLineOf, checks]
    split
    · have hstart := packetPos_start (i := i) (v := v) h.wire s.hsSaved s.pollN
      rw [hline] at hstart
      refine .inl ⟨h.rst, h.st, h.timer, h.err, h.instr, h.wire, ?_, added, hsettled, ?_⟩
      · rw [nextLine_port, hfree.1]; nofun
      · rw [hadded, nextLine_upc, upc, nextLine_dsiCtl, hshadow]
        exact hstart
    · exact .inr (packetEnded_abort _ _)
  | byte polls b done line idx ends hb pos hadded =>
    exact h.byteStep hport line idx ends hb pos (hadded ▸ hsettled) hstep
  | sent polls line hs len ends hadded =>
    have hfree := h.free hport (by rw [hs]; rfl)
    rw [step_complete h.rst h.st hfree h.instr (by rw [line]; exact programOf_afterSend h.wire)] at hstep
    obtain rfl := Host.Outcome.next.inj hstep
    rw [hfree.1, Settled, hadded] at hsettled
    exact .inr ⟨rfl, .inr ⟨polls, len, ends, hsettled.symm⟩⟩

/-- Every step goes on with the packet or ends the command, whichever agent's it is. -/
theorem PacketRun.step (hstep : step s = .next t) : PacketRun i v bytes tr t ∨ PacketEnded v bytes tr t := by
  cases hp : s.port with
  | req a =>
    rw [step_of_req h.rst hp] at hstep
    obtain rfl := Host.Outcome.next.inj hstep
    exact .inl (h.portStep hp)
  | atCtrl a =>
    rw [step_of_atCtrl h.rst hp] at hstep
    obtain rfl := Host.Outcome.next.inj hstep
    exact .inl (h.controllerStep hp)
  | failed a =>
    rw [step_of_failed h.rst hp h.timer h.st, exec_eq_runProgram, runProgram_of_failed hp h.timer] at hstep
    obtain rfl := Host.Outcome.next.inj hstep
    exact .inr (packetEnded_abort _ _)
  | idle => exact h.coreStep (.inl hp) hstep
  | got x => exact h.coreStep (.inr ⟨x, hp⟩) hstep

end

/-- A command runs in the first state of its run. -/
theorem CommandRun.exec {s t : State} (hrun : CommandRun s t) : s.st = .exec := by
  cases hrun <;> assumption

/-- A run that ends in IDLE ends the command (R30). -/
theorem PacketRun.ended {i : Instr} {v : Word} {bytes : List Byte} {tr : List Event} {s t : State}
    (h : PacketRun i v bytes tr s) (hrun : CommandRun s t) (hidle : t.st = .idle) : PacketEnded v bytes tr t := by
  induction hrun with
  | last _ hstep =>
    refine (h.step hstep).resolve_left fun hnext => ?_
    simp [hnext.st] at hidle
  | more _ hstep hrest ih =>
    rcases h.step hstep with hnext | ⟨hended, -⟩
    · exact ih hnext hidle
    · simp [hrest.exec] at hended

/-- A long packet is its five header bytes, its payload and its checksum (R79). -/
theorem length_longWireBytes (isDcs : Bool) (p : List Byte) (k : Half) :
    (wireBytes.longWireBytes isDcs p k).length = 7 + p.length := by
  simp only [wireBytes.longWireBytes, List.length_append, List.length_cons, List.length_nil, List.length_map]
  omega

/-- Settles O52: every step goes on with the packet or ends the command, and the packet's trace has the counts. -/
theorem packetTraceCounts : Obligations.PacketTraceCounts := by
  intro i s t bytes hstart hwire hrun hidle herr
  obtain ⟨-, herror | ⟨polls, hlen, hends, htrace⟩⟩ := (hstart.packetRun hwire).ended hrun hidle
  · exact absurd herr herror
  obtain ⟨hleast, hmost⟩ := countP_isRead_packetTrace (v := s.dsiCtl) hlen hends
  refine ⟨_, polls, htrace, hlen, hends, rfl, countP_isTx_packetTrace hlen, filterMap_shadowValue_packetTrace hlen,
    hleast, hmost, fun ty w0 w1 hi => ?_, fun isDcs hi => ?_⟩
  · subst hi
    obtain rfl := Option.some.inj hwire
    rfl
  · subst hi
    obtain rfl := Option.some.inj hwire
    exact length_longWireBytes _ _ _

end Sys2Proof.Machine

/-! # Proofs: the sequencer (spec/42_sequencer.md)

The timing values (R162, R163), the check of the lane count (R152), the lines of BRING_UP (R151), and its whole run (R166). -/

namespace Sys2Proof.Machine

/-! ## The timing values (R162, R163) -/

/-- A 16-bit field of the PanelConfig keeps its value in a 32-bit word (R162). -/
theorem toNat_setWidth_half (x : Half) : (x.setWidth 32).toNat = x.toNat :=
  BitVec.toNat_setWidth_of_le (by decide)

theorem toNat_hActiveValue (cfg : PanelConfig) : (hActiveValue cfg).toNat = cfg.width.toNat * 3 := by
  have hwidth : cfg.width.toNat < 2 ^ 16 := cfg.width.isLt
  rw [hActiveValue, BitVec.toNat_mul, toNat_setWidth_half, show (3 : Word).toNat = 3 from rfl]
  exact Nat.mod_eq_of_lt (by omega)

theorem toNat_vFrontPorchValue (cfg : PanelConfig) :
    (vFrontPorchValue cfg).toNat = cfg.vBackPorch.toNat + cfg.height.toNat := by
  have hback : cfg.vBackPorch.toNat < 2 ^ 16 := cfg.vBackPorch.isLt
  have hheight : cfg.height.toNat < 2 ^ 16 := cfg.height.isLt
  rw [vFrontPorchValue, vBackPorchValue, BitVec.toNat_add, toNat_setWidth_half, toNat_setWidth_half]
  exact Nat.mod_eq_of_lt (by omega)

theorem toNat_vActiveValue (cfg : PanelConfig) :
    (vActiveValue cfg).toNat = cfg.vBackPorch.toNat + cfg.height.toNat + cfg.vFrontPorch.toNat := by
  have hback : cfg.vBackPorch.toNat < 2 ^ 16 := cfg.vBackPorch.isLt
  have hheight : cfg.height.toNat < 2 ^ 16 := cfg.height.isLt
  have hfront : cfg.vFrontPorch.toNat < 2 ^ 16 := cfg.vFrontPorch.isLt
  rw [vActiveValue, BitVec.toNat_add, toNat_vFrontPorchValue, toNat_setWidth_half]
  exact Nat.mod_eq_of_lt (by omega)

/-- Settles O14: each operand has 16 bits, so three of them stay below 2^32. -/
theorem timingValuesDoNotOverflow : Obligations.TimingValuesDoNotOverflow := fun cfg =>
  ⟨toNat_hActiveValue cfg, toNat_setWidth_half _, toNat_vFrontPorchValue cfg, toNat_vActiveValue cfg⟩

/-! ## B0, the check of the lane count (R152) -/

theorem lanesInRange_iff {n : Byte} : lanesInRange n = true ↔ 1 ≤ n.toNat ∧ n.toNat ≤ 4 := by
  rw [lanesInRange, Bool.and_eq_true, decide_eq_true_iff, decide_eq_true_iff]

/-- The first line of BRING_UP goes on or aborts, as the lane count is legal or not (R152). -/
theorem exec_checkLanes {s : State} (hfree : CoreFree s) (hfirst : s.upc = Upc.first) : exec .bringUp s =
    .next (if lanesInRange s.cur.cfg.numLanes then nextLine s else abort .invalidConfig s) := by
  rw [exec_eq_runProgram, runProgram_of_free hfree (by rw [hfirst]; exact bringUp_first_line s.cur)]
  rfl

/-- Settles O23: the first line's abort leaves the idle PORT as it was. -/
theorem laneCountIsCheckedFirst : Obligations.LaneCountIsCheckedFirst := by
  intro s hfree hfirst
  have hport : s.port = .idle := hfree.1
  rw [exec_checkLanes hfree hfirst]
  refine ⟨fun hout => ?_, fun hin => ?_⟩
  · have hrange : ¬ lanesInRange s.cur.cfg.numLanes = true := fun hin => by
      have := lanesInRange_iff.1 hin
      omega
    rw [if_neg hrange, abort, ← hport]
    rfl
  · rw [if_pos (lanesInRange_iff.2 hin), nextLine, hfirst]
    rfl

/-! ## The lines that neither check, send nor end (R151) -/

/-- What a line does besides going on with the next one; none for a line that checks, sends, ends or raises. -/
def Line.effect : Line → Option (State → State)
  | .setShadow v => some fun s => { s with dsiCtl := v }
  | .orShadow m => some fun s => { s with dsiCtl := s.dsiCtl ||| m }
  | .writeShadow => some wrShadow
  | .write r v => some (wr r v)
  | .delay t => some (wait t)
  | .checkLanes _ => none
  | .checkLength _ => none
  | .send _ => none
  | .complete _ => none
  | .raise _ => none

theorem runLine_of_effect {l : Line} {f : State → State} (h : l.effect = some f) (s : State) :
    runLine l s = .next (nextLine (f s)) := by
  cases l <;> cases h <;> rfl

theorem upc_of_effect {l : Line} {f : State → State} (h : l.effect = some f) (s : State) : (f s).upc = s.upc := by
  cases l <;> cases h <;> rfl

/-- The list of R151 is the program's lines that have an effect, each with its number. -/
theorem bringUpEffects_eq (cfg : PanelConfig) : bringUpEffects cfg =
    (bringUpProgram cfg).zipIdx.filterMap fun p => p.1.op.effect.map fun f => (p.2, f) := rfl

theorem bringUp_line_of_effect {cfg : PanelConfig} {n : Nat} {f : State → State} (h : (n, f) ∈ bringUpEffects cfg) :
    ∃ l, (bringUpProgram cfg)[n]? = some l ∧ l.op.effect = some f := by
  rw [bringUpEffects_eq] at h
  obtain ⟨⟨l, k⟩, hmem, heq⟩ := List.mem_filterMap.1 h
  obtain ⟨g, hg, hpair⟩ := Option.map_eq_some_iff.1 heq
  obtain ⟨rfl, rfl⟩ := Prod.mk.inj hpair
  exact ⟨l, List.mem_zipIdx_iff_getElem?.1 hmem, hg⟩

/-- A line with an effect has it in one step, and `upc` goes on with the next line (R30, R151). -/
theorem exec_of_effect {i : Instr} {s : State} {l : ProgLine} {f : State → State} (hfree : CoreFree s)
    (hl : (programOf i s.cur)[s.upc.line]? = some l) (hf : l.op.effect = some f) :
    exec i s = .next { f s with upc := ⟨s.upc.line + 1, 0, .setSave⟩ } := by
  rw [exec_eq_runProgram, runProgram_of_free hfree hl, runLine_of_effect hf, nextLine, upc_of_effect hf]

/-- Settles O24: the list's entries are the effects of the program's own lines. -/
theorem bringUpRunsItsLinesInOrder : Obligations.BringUpRunsItsLinesInOrder := by
  rintro s n f hfree rfl hmem
  obtain ⟨l, hl, hf⟩ := bringUp_line_of_effect hmem
  exact exec_of_effect hfree hl hf

/-! ## The polls of several packets -/

theorem packetSteps_append (p q : Polls) : packetSteps (p ++ q) = packetSteps p + packetSteps q := by
  rw [packetSteps, List.map_append, List.sum_append]
  rfl

theorem packetAccesses_append (p q : Polls) : packetAccesses (p ++ q) = packetAccesses p + packetAccesses q := by
  rw [packetAccesses, List.map_append, List.sum_append]
  rfl

theorem pollValues_append (p q : Polls) : pollValues (p ++ q) = pollValues p ++ pollValues q := List.flatMap_append

/-- Each packet of BRING_UP is a short one (R78, R161). -/
theorem length_bringUpPacket {n : Nat} {bytes : List Byte} (h : bringUpPacket n = some bytes) : bytes.length = 5 := by
  unfold bringUpPacket at h
  split at h <;> cases h <;> rfl

/-! ## Runs of such lines (R11, R151) -/

/-- The shadow after a line that began with `d` in it. -/
def Line.shadow (d : Word) : Line → Word
  | .setShadow v => v
  | .orShadow m => d ||| m
  | .writeShadow => d
  | .write _ _ => d
  | .delay _ => d
  | .checkLanes _ => d
  | .checkLength _ => d
  | .send _ => d
  | .complete _ => d
  | .raise _ => d

/-- What the access or the wait of a line adds to the trace, when it is answered `ok` or completed, with `d` in the shadow. -/
def Line.events (d : Word) : Line → List Event
  | .writeShadow => [wEvent .dsiCtl d]
  | .write r v => [wEvent r v]
  | .delay t => [dEvent t]
  | .setShadow _ => []
  | .orShadow _ => []
  | .checkLanes _ => []
  | .checkLength _ => []
  | .send _ => []
  | .complete _ => []
  | .raise _ => []

/-- The shadow after lines that began with `d` in it. -/
def shadowAfter (d : Word) (ls : List ProgLine) : Word := ls.foldl (fun d l => l.op.shadow d) d

/-- What lines that began with `d` in the shadow add to the trace. -/
def lineEvents (d : Word) : List ProgLine → List Event
  | [] => []
  | l :: ls => l.op.events d ++ lineEvents (l.op.shadow d) ls

/-- The event is a write. -/
def Event.isWrite : Event → Bool
  | .write _ _ _ => true
  | .read _ => false
  | .delay _ => false

/-- The event is a completed wait. -/
def Event.isDelay : Event → Bool
  | .delay _ => true
  | .write _ _ _ => false
  | .read _ => false

/-- The CONTROLLER's registers after an event: an `ok` write reaches its register (R58). -/
def CtrlRegs.receive (c : CtrlRegs) : Event → CtrlRegs
  | .write r v true => c.set r v
  | .write _ _ false => c
  | .read _ => c
  | .delay _ => c

@[simp] theorem receive_wEvent (c : CtrlRegs) (r : Reg) (v : Word) : c.receive (wEvent r v) = c.set r v := rfl
@[simp] theorem receive_dEvent (c : CtrlRegs) (t : DelayTag) : c.receive (dEvent t) = c := rfl

/-- BRING_UP, latched with `cfg`, is about to run line `n`, with `d` in the shadow and `tr` the trace, and `pa`, `rd` and `tw` are
the answers left to the PORT, the CONTROLLER and the TIMER. -/
structure BringUpAt (cfg : PanelConfig) (n : Nat) (d : Word) (tr : List Event) (pa : List Bool) (rd : List Word)
    (tw : List Nat) (s : State) : Prop where
  rst : s.rst = false
  st : s.st = .exec
  instr : s.cur.instr = .bringUp
  cfg : s.cur.cfg = cfg
  err : s.err = 0
  free : CoreFree s
  upc : s.upc = ⟨n, 0, .setSave⟩
  dsiCtl : s.dsiCtl = d
  trace : s.trace = tr
  portAnswers : s.portAnswers = pa
  readDraws : s.readDraws = rd
  timerWaits : s.timerWaits = tw

section

variable {s : State} {cfg : PanelConfig} {n : Nat} {d : Word} {tr : List Event} {pa qa : List Bool} {rd rd' : List Word}
  {tw ws uw : List Nat} {l : ProgLine} {ls : List ProgLine}

theorem BringUpAt.step_of_effect {f : State → State} (h : BringUpAt cfg n d tr pa rd tw s)
    (hl : (bringUpProgram cfg)[n]? = some l) (hf : l.op.effect = some f) :
    step s = .next { f s with upc := ⟨n + 1, 0, .setSave⟩ } := by
  have hline : (programOf .bringUp s.cur)[s.upc.line]? = some l := by rw [h.upc, programOf, h.cfg]; exact hl
  rw [step_of_core h.rst h.free h.st, h.instr, exec_of_effect h.free hline hf, h.upc]

/-- A line that neither checks, sends nor ends, with its access or its wait: a step for the line, two for a write, and one
more than it goes on for a wait (R11, R239). -/
theorem BringUpAt.runs_line (h : BringUpAt cfg n d tr pa rd tw s) (hl : (bringUpProgram cfg)[n]? = some l)
    (heffect : l.op.effect.isSome) (ha : pa = List.replicate ((l.op.events d).countP Event.isWrite) true ++ qa)
    (hw : tw = ws ++ uw) (hlen : ws.length = (l.op.events d).countP Event.isDelay) :
    ∃ t, Runs (1 + 2 * (l.op.events d).countP Event.isWrite + (ws.length + ws.sum)) s t ∧
      BringUpAt cfg (n + 1) (l.op.shadow d) (tr ++ l.op.events d) qa rd uw t ∧
      t.ctrl = (l.op.events d).foldl CtrlRegs.receive s.ctrl := by
  obtain ⟨f, hf⟩ := Option.isSome_iff_exists.1 heffect
  have hstep := h.step_of_effect hl hf
  obtain ⟨hrst, hst, hinstr, hcfg, herr, hfree, -, rfl, rfl, hpa, hrd, htw⟩ := h
  obtain ⟨m, op⟩ := l
  cases op with
  | setShadow v | orShadow m =>
    cases hf
    obtain rfl := List.eq_nil_of_length_eq_zero hlen
    exact ⟨_, runs_one hstep, ⟨hrst, hst, hinstr, hcfg, herr, hfree, rfl, rfl, (List.append_nil _).symm, hpa.trans ha, hrd,
      htw.trans hw⟩, rfl⟩
  | writeShadow | write r v =>
    cases hf
    obtain rfl := List.eq_nil_of_length_eq_zero hlen
    exact ⟨_, runs_issue_write hstep hrst rfl (hpa.trans ha), ⟨hrst, hst, hinstr, hcfg, herr, ⟨rfl, hfree.2⟩, rfl, rfl,
      rfl, rfl, hrd, htw.trans hw⟩, rfl⟩
  | delay t =>
    cases hf
    obtain ⟨w, rfl⟩ := List.length_eq_one_iff.1 hlen
    have hrun := runs_succ hstep (runs_delay_ok hrst hfree.1 rfl (htw.trans hw))
    rw [show w + 1 + 1 = 1 + (1 + w) by omega] at hrun
    exact ⟨_, hrun, ⟨hrst, hst, hinstr, hcfg, herr, ⟨hfree.1, rfl⟩, rfl, rfl, rfl, hpa.trans ha, hrd, rfl⟩, rfl⟩
  | checkLanes _ | checkLength _ | send _ | complete _ | raise _ => cases hf

/-- Such lines one after the other. -/
theorem BringUpAt.runs_lines (h : BringUpAt cfg n d tr pa rd tw s) (hls : ls <+: (bringUpProgram cfg).drop n)
    (heffect : ∀ l ∈ ls, l.op.effect.isSome)
    (ha : pa = List.replicate ((lineEvents d ls).countP Event.isWrite) true ++ qa)
    (hw : tw = ws ++ uw) (hlen : ws.length = (lineEvents d ls).countP Event.isDelay) :
    ∃ t, Runs (ls.length + 2 * (lineEvents d ls).countP Event.isWrite + (ws.length + ws.sum)) s t ∧
      BringUpAt cfg (n + ls.length) (shadowAfter d ls) (tr ++ lineEvents d ls) qa rd uw t ∧
      t.ctrl = (lineEvents d ls).foldl CtrlRegs.receive s.ctrl := by
  induction ls generalizing s n d tr pa tw ws with
  | nil =>
    obtain rfl := List.eq_nil_of_length_eq_zero hlen
    obtain rfl : pa = qa := ha
    obtain rfl : tw = uw := hw
    exact ⟨s, runs_zero s, by rwa [lineEvents, List.append_nil], rfl⟩
  | cons l ls ih =>
    obtain ⟨rest, hrest⟩ := hls
    have hl : (bringUpProgram cfg)[n]? = some l := by
      rw [← List.head?_drop, ← hrest]
      rfl
    have hls : ls <+: (bringUpProgram cfg).drop (n + 1) := ⟨rest, by
      rw [← List.tail_drop, ← hrest]
      rfl⟩
    obtain ⟨heffectL, heffectLs⟩ := List.forall_mem_cons.1 heffect
    rw [lineEvents, List.countP_append] at ha hlen ⊢
    obtain ⟨us, vs, rfl, hus⟩ : ∃ us vs, ws = us ++ vs ∧ us.length = (l.op.events d).countP Event.isDelay :=
      ⟨ws.take _, ws.drop _, (List.take_append_drop _ ws).symm, List.length_take_of_le (by rw [hlen]; omega)⟩
    rw [List.replicate_add, List.append_assoc] at ha
    rw [List.append_assoc] at hw
    rw [List.length_append, hus] at hlen
    obtain ⟨t, hline, hat, hctrl⟩ := h.runs_line hl heffectL ha hw hus
    obtain ⟨u, hlines, hat, hctrl'⟩ := ih hat hls heffectLs rfl rfl (Nat.add_left_cancel hlen)
    refine ⟨u, ?_, ?_, by rw [hctrl', hctrl, List.foldl_append]⟩
    · convert runs_add hline hlines using 1
      simp only [List.length_cons, List.length_append, List.sum_append]
      omega
    · rw [← List.append_assoc, List.length_cons, Nat.add_comm ls.length, ← Nat.add_assoc]
      exact hat

/-! ## The packets of B8 and B9 (R160, R161) -/

/-- A packet line of BRING_UP whose waits end ready (R160, R161). -/
theorem BringUpAt.runs_packet {bytes : List Byte} {polls : Polls} (h : BringUpAt cfg n d tr pa rd tw s)
    (hbytes : bringUpPacket n = some bytes) (hlen : polls.length = 5) (hends : PollsEndReady polls)
    (ha : pa = List.replicate (packetAccesses polls) true ++ qa) (hd : rd = pollValues polls ++ rd') :
    ∃ t, Runs (packetSteps polls) s t ∧ BringUpAt cfg (n + 1) d (tr ++ packetTrace d polls bytes) qa rd' tw t ∧
      t.ctrl.get .dsiCtl = d := by
  have hfive := length_bringUpPacket hbytes
  have hsends : sendsAt s.cur.instr s = some bytes := by rw [sendsAt, h.instr, if_pos rfl, h.upc, hbytes]
  obtain ⟨k, c, hrun, hshadow, -⟩ := Machine.runs_packet h.rst h.st h.free hsends h.upc
    (List.ne_nil_of_length_eq_add_one hfive) (hlen.trans hfive.symm) hends (h.portAnswers.trans ha) (h.readDraws.trans hd)
  exact ⟨_, hrun, ⟨h.rst, h.st, h.instr, h.cfg, h.err, h.free, rfl, h.dsiCtl, by rw [h.trace, h.dsiCtl], rfl, rfl,
    h.timerWaits⟩, hshadow.trans h.dsiCtl⟩

/-- A packet line of B9 and the delay after it (R161). -/
theorem BringUpAt.runs_packet_delay {bytes : List Byte} {polls : Polls} {w : Nat} (h : BringUpAt cfg n d tr pa rd (w :: tw) s)
    (hbytes : bringUpPacket n = some bytes)
    (hdelay : (bringUpProgram cfg)[n + 1]? = some ⟨.b9, .delay .cmdDelay⟩) (hlen : polls.length = 5)
    (hends : PollsEndReady polls) (ha : pa = List.replicate (packetAccesses polls) true ++ qa)
    (hd : rd = pollValues polls ++ rd') :
    ∃ t, Runs (packetSteps polls + (1 + (1 + w))) s t ∧
      BringUpAt cfg (n + 2) d (tr ++ packetTrace d polls bytes ++ [dEvent .cmdDelay]) qa rd' tw t ∧
      t.ctrl.get .dsiCtl = d := by
  obtain ⟨t, hpacket, hat, hshadow⟩ := h.runs_packet hbytes hlen hends ha hd
  obtain ⟨u, hwait, hat, hctrl⟩ := hat.runs_line (ws := [w]) hdelay rfl rfl rfl rfl
  exact ⟨u, runs_add hpacket hwait, hat, hctrl ▸ hshadow⟩

end

/-! ## The whole program (R150, R166) -/

/-- The lines of B1 to B7. -/
def bringUpOpening (cfg : PanelConfig) : List ProgLine := (bringUpSetup cfg).tail ++ bringUpPower

/-- The lines of B10 and B11 before the end of the command. -/
def bringUpClosing (cfg : PanelConfig) : List ProgLine := (bringUpTiming cfg).dropLast

/-- The trace of R166 is the events of the program's own lines, begun with any `d` in the shadow. -/
theorem bringUpTrace_eq (cfg : PanelConfig) (p1 p2 p3 p4 : Polls) (d : Word) :
    bringUpTrace cfg p1 p2 p3 p4 =
      let v := Config.laneEnc cfg.numLanes ||| 1
      lineEvents d (bringUpOpening cfg)
        ++ packetTrace v p1 [0xE1, 0xA0, 0x00, 0x00, 0x50]
        ++ packetTrace v p2 [0xE1, 0xA8, 0x88, 0x00, 0xA4] ++ [dEvent .cmdDelay]
        ++ packetTrace v p3 [0xE1, 0xA8, 0x94, 0x00, 0xF0] ++ [dEvent .cmdDelay]
        ++ packetTrace v p4 [0xE1, 0xA8, 0x1C, 0x00, 0xCC] ++ [dEvent .cmdDelay]
        ++ lineEvents v (bringUpClosing cfg) := rfl

/-- B10 and B11 write the last line's 1 to TIMING_CTL and leave DSI_CTL alone (R162, R165). -/
theorem get_closing (cfg : PanelConfig) (d : Word) (c : CtrlRegs) :
    ((lineEvents d (bringUpClosing cfg)).foldl CtrlRegs.receive c).get .timingCtl = 1 ∧
    ((lineEvents d (bringUpClosing cfg)).foldl CtrlRegs.receive c).get .dsiCtl = c.get .dsiCtl := by
  simp [bringUpClosing, bringUpTiming, lineEvents, Line.events]

section

variable {s : State} {cfg : PanelConfig} {d : Word} {tr : List Event} {pa : List Bool} {rd : List Word} {tw ws uw : List Nat}

/-- The lines before the packets, with nine writes and four waits (R153 to R159). -/
theorem BringUpAt.runs_opening (h : BringUpAt cfg 1 d tr (List.replicate 9 true ++ pa) rd tw s) (hw : tw = ws ++ uw)
    (hlen : ws.length = 4) : ∃ t, Runs (34 + (4 + ws.sum)) s t ∧
      BringUpAt cfg 17 (Config.laneEnc cfg.numLanes ||| 1) (tr ++ lineEvents d (bringUpOpening cfg)) pa rd uw t := by
  obtain ⟨t, hrun, hat, -⟩ := h.runs_lines (ls := bringUpOpening cfg) ⟨bringUpPackets ++ bringUpTiming cfg, rfl⟩
    (List.all_eq_true.1 rfl) rfl hw hlen
  rw [hlen] at hrun
  exact ⟨t, hrun, hat⟩

/-- The lines after the packets, with nine writes (R162, R165). -/
theorem BringUpAt.runs_closing (h : BringUpAt cfg 24 d tr (List.replicate 9 true ++ pa) rd tw s) :
    ∃ t, Runs 27 s t ∧ BringUpAt cfg 33 d (tr ++ lineEvents d (bringUpClosing cfg)) pa rd tw t ∧
      t.ctrl.get .timingCtl = 1 ∧ t.ctrl.get .dsiCtl = s.ctrl.get .dsiCtl := by
  obtain ⟨t, hrun, hat, hctrl⟩ := h.runs_lines (ls := bringUpClosing cfg) (ws := [])
    ⟨[⟨.b11, .complete (some 0)⟩], rfl⟩ (List.all_eq_true.1 rfl) rfl rfl rfl
  exact ⟨t, hrun, hat, hctrl ▸ get_closing cfg d s.ctrl⟩

end

/-- From acceptance to B1: the lane count is legal (R152). -/
theorem Started.runs_to_opening {s : State} (h : Started .bringUp s) (hlanes : 1 ≤ s.cur.cfg.numLanes.toNat ∧
    s.cur.cfg.numLanes.toNat ≤ 4) : ∃ t, Runs 1 s t ∧
      BringUpAt s.cur.cfg 1 s.dsiCtl s.trace s.portAnswers s.readDraws s.timerWaits t := by
  refine ⟨{ s with upc := ⟨1, 0, .setSave⟩ }, runs_one ?_,
    ⟨h.rst, h.st, h.instr, rfl, h.err, h.free, rfl, rfl, rfl, rfl, rfl, rfl⟩⟩
  rw [step_of_core h.rst h.free h.st, h.instr]
  exact (laneCountIsCheckedFirst s h.free h.first).2 hlanes

/-- Settles O53: the check of the lane count, the opening lines, the four packets with the three delays, the closing lines and
the line that ends the command. -/
theorem bringUpCompletes : Obligations.BringUpCompletes := by
  intro s p1 p2 p3 p4 rd pa tw waits h hmin hmax hlen1 hlen2 hlen3 hlen4 hends1 hends2 hends3 hends4 ha hd hlen hw
  obtain ⟨ws, w5, w6, w7, rfl, hws⟩ : ∃ ws w5 w6 w7, waits = ws ++ [w5, w6, w7] ∧ ws.length = 4 :=
    match waits, hlen with
    | [w1, w2, w3, w4, w5, w6, w7], _ => ⟨[w1, w2, w3, w4], w5, w6, w7, rfl, rfl⟩
  have hanswers : s.portAnswers = List.replicate 9 true ++ (List.replicate (packetAccesses p1) true ++
      (List.replicate (packetAccesses p2) true ++ (List.replicate (packetAccesses p3) true ++
      (List.replicate (packetAccesses p4) true ++ (List.replicate 9 true ++ pa))))) := by
    simp only [ha, packetAccesses_append, ← List.append_assoc, List.replicate_append_replicate]
    congr 2
    omega
  obtain ⟨t0, hcheck, hat⟩ := h.runs_to_opening ⟨hmin, hmax⟩
  simp only [hanswers, hd, pollValues_append, List.append_assoc] at hat
  obtain ⟨t1, hopening, hat⟩ := hat.runs_opening (hw.trans (List.append_assoc ..)) hws
  obtain ⟨t2, hpacket1, hat, -⟩ := hat.runs_packet rfl hlen1 hends1 rfl rfl
  obtain ⟨t3, hpacket2, hat, -⟩ := hat.runs_packet_delay rfl rfl hlen2 hends2 rfl rfl
  obtain ⟨t4, hpacket3, hat, -⟩ := hat.runs_packet_delay rfl rfl hlen3 hends3 rfl rfl
  obtain ⟨t5, hpacket4, hat, hshadow⟩ := hat.runs_packet_delay rfl rfl hlen4 hends4 rfl rfl
  obtain ⟨t6, hclosing, hat, htiming, hkept⟩ := hat.runs_closing
  have hend : step t6 = .next (finish (some 0) t6) := step_complete (m := .b11) hat.rst hat.st hat.free hat.instr (by
    rw [hat.upc]
    rfl)
  refine ⟨finish (some 0) t6, ?_, ?_, hat.dsiCtl, rfl, rfl, rfl, hat.err, hat.free, hat.portAnswers, hat.readDraws,
    hat.timerWaits, htiming, hkept.trans (hshadow.trans hat.dsiCtl.symm)⟩
  · convert runs_add hcheck (runs_add hopening (runs_add hpacket1 (runs_add hpacket2 (runs_add hpacket3
      (runs_add hpacket4 (runs_add hclosing (runs_one hend))))))) using 1
    simp only [packetSteps_append, List.sum_append, List.sum_cons, List.sum_nil]
    omega
  · rw [bringUpTrace_eq s.cur.cfg p1 p2 p3 p4 s.dsiCtl]
    simpa only [finish_trace, List.append_assoc] using hat.trace

end Sys2Proof.Machine

/-! # Proofs: exceptions (spec/60_exceptions.md)

What may raise each error and what the abort writes (R200, R203), the first line of the commands with a payload (R201), an
access that the PORT refuses (R205), and what it leaves in the shadow at each phase of a handshake (R204). -/

namespace Sys2Proof.Machine

/-! ## Long payloads (R201) -/

theorem lengthInRange_eq_false {plen : Half} : lengthInRange plen = false ↔ 255 < plen.toNat :=
  decide_eq_false_iff_not.trans Nat.not_le

/-- The first line of SEND_LONG, under each of its names, goes on or aborts, as the length is legal or not (R129, R201). -/
theorem exec_checkLength {i : Instr} {s : State} (hcheck : Instr.checksLength i = true) (hfree : CoreFree s)
    (hfirst : s.upc = Upc.first) : exec i s =
      .next (if lengthInRange s.cur.plen then nextLine s else abort .invalidLength s) := by
  rw [exec_eq_runProgram, runProgram_of_free hfree (by rw [hfirst]; exact checkLength_line hcheck s.cur)]
  rfl

/-- Settles O22: CRC16 by O16, SEND_LONG by its first line, whose abort leaves the idle PORT as it was. -/
theorem longPayloadsRaiseInvalidLength : Obligations.LongPayloadsRaiseInvalidLength := by
  intro s hfree hfirst
  have hport : s.port = .idle := hfree.1
  obtain ⟨-, -, hcrc, hlong⟩ := primitiveCommandsTakeOneStep s hfree hfirst
  refine ⟨hlong, hcrc, fun i hcheck => ?_⟩
  rw [exec_checkLength hcheck hfree hfirst]
  refine ⟨fun hgt => ?_, fun hle => ?_⟩
  · rw [lengthInRange_eq_false.2 hgt, if_neg Bool.false_ne_true, abort, ← hport]
    rfl
  · have hrange : lengthInRange s.cur.plen = true := decide_eq_true hle
    rw [if_pos hrange, nextLine, hfirst]
    rfl

/-! ## An access that the PORT refuses (R205) -/

/-- Settles O35: every instruction runs its program, and every program aborts on an `err` answer. -/
theorem everyInstructionAbortsOnAnError : Obligations.EveryInstructionAbortsOnAnError := by
  intro i s a htimer hport
  rw [exec_eq_runProgram]
  exact runProgram_of_failed hport htimer

/-- The PORT refuses an access, and the CORE's next step aborts (R58, R205). -/
theorem steps_of_refused {s : State} {a : Access} {pa : List Bool} (hrst : s.rst = false)
    (hst : s.st = .exec) (htimer : s.timer = none) (hport : s.port = .req a)
    (hanswers : s.portAnswers = false :: pa) : ∃ t, step s = .next t ∧ step t = .next (abort .busError { s with
      portAnswers := pa, ctrl := s.ctrl.clobber a (Config.unknownReg s.drawN), drawN := s.drawN + 1
      trace := s.trace ++ [failedEvent a] }) :=
  ⟨portStep s, step_of_req hrst hport, by
    rw [portStep_of_err hport hanswers]
    exact Eq.trans (step_of_failed hrst rfl htimer hst) (everyInstructionAbortsOnAnError _ _ a htimer rfl)⟩

/-- Settles O33: the abort keeps the rest of the CORE's state, and the trace ends with the PORT's refusal. -/
theorem aPortErrorAborts : Obligations.APortErrorAborts := by
  intro s a pa hrst hst htimer hport hanswers
  obtain ⟨t, hrefuse, habort⟩ := steps_of_refused hrst hst htimer hport hanswers
  exact ⟨t, _, hrefuse, habort, rfl, rfl, rfl, ⟨rfl, htimer⟩, rfl, rfl, rfl, rfl, rfl⟩

/-! ## What may raise an error (R200, R203) -/

/-- What has gone wrong when instruction `i` raises an error of the kind in state `s` (R200). -/
def ErrCause (i : Instr) (s : State) : ErrKind → Prop
  | .invalidConfig => i = .bringUp ∧ lanesInRange s.cur.cfg.numLanes = false
  | .handshakeTimeout => sendsAt i s ≠ none ∧ ∃ n, Config.hsTimeout = some n ∧ n ≤ s.pollN
  | .busError => ∃ a, s.port = .failed a
  | .illegalCommand => ∃ w, i = .illegal w
  | .invalidLength => (i = .crc16 ∨ Instr.checksLength i = true) ∧ 255 < s.cur.plen.toNat

/-- An error that the line raises in itself, without the handshake of a byte, has its cause. -/
def Line.RaisesWithCause (i : Instr) (s : State) : Line → Prop
  | .checkLanes n => lanesInRange n = false → ErrCause i s .invalidConfig
  | .checkLength n => lengthInRange n = false → ErrCause i s .invalidLength
  | .raise k => ErrCause i s k
  | .setShadow _ => True
  | .orShadow _ => True
  | .writeShadow => True
  | .write _ _ => True
  | .delay _ => True
  | .send _ => True
  | .complete _ => True

/-- The checks and the raising lines of every program stand where the error they raise has its cause (R152, R201, R207). -/
theorem raisesWithCause_of_line {i : Instr} {s : State} {n : Nat} {l : ProgLine}
    (hl : (programOf i s.cur)[n]? = some l) : l.op.RaisesWithCause i s := by
  have hall : (programOf i s.cur).Forall (·.op.RaisesWithCause i s) := by
    cases i
    case crc16 =>
      simp only [programOf, crc16Program]
      split
      · trivial
      · next hrange => exact ⟨.inl rfl, lengthInRange_eq_false.1 (Bool.eq_false_iff.2 hrange)⟩
    case illegal w => exact ⟨w, rfl⟩
    case bringUp =>
      simp [programOf, bringUpProgram, bringUpSetup, bringUpPower, bringUpPackets, bringUpTiming,
        Line.RaisesWithCause, ErrCause]
    case sendLong | dcsLong | genLong =>
      exact ⟨fun hrange => ⟨.inr rfl, lengthInRange_eq_false.1 hrange⟩, trivial, trivial⟩
    case rev8 | ecc6 => trivial
    all_goals exact ⟨trivial, trivial⟩
  exact List.forall_iff_forall_mem.1 hall l (List.mem_of_getElem? hl)

/-- Where the program of any instruction sends bytes, `sendsAt` names some. -/
theorem sendsAt_ne_none_of_line {i : Instr} {s : State} {l : ProgLine} {bytes : List Byte}
    (hl : (programOf i s.cur)[s.upc.line]? = some l) (hop : l.op = .send bytes) : sendsAt i s ≠ none := by
  have hprog : programOf i { s.cur with instr := i } = programOf i s.cur := by cases i <;> rfl
  have hsends : sendsAt i { s with cur := { s.cur with instr := i } } = sendsAt i s := by cases i <;> rfl
  rw [← hsends]
  exact sendsAt_of_send_line (s := { s with cur := { s.cur with instr := i } }) (hprog ▸ hl) hop

/-- A wait reaches its bound only under a bound (R122). -/
theorem exists_bound_of_reached {k : Nat} (h : pollBoundReached k = true) : ∃ n, Config.hsTimeout = some n ∧ n ≤ k := by
  by_contra hno
  push Not at hno
  rw [pollBoundReached_eq_false hno] at h
  cases h

/-- A step of the CORE keeps ERR, or is an abort whose error has its cause (R200, R203). -/
theorem errCause_of_exec {i : Instr} {s t : State} (hstep : exec i s = .next t) :
    t.err = s.err ∨ ∃ k, t = abort k s ∧ ErrCause i s k := by
  rw [exec_eq_runProgram] at hstep
  rcases runProgram_next_cases hstep with ⟨-, rfl⟩ | ⟨-, hfailed, rfl⟩ | ⟨-, -, l, hl, hline⟩
  · exact .inl rfl
  · exact .inr ⟨.busError, rfl, hfailed⟩
  have hcause := raisesWithCause_of_line hl
  cases hop : l.op <;> rw [hop] at hline hcause
  case send bytes =>
    obtain ⟨b, -, hhs⟩ := sendLine_next hline
    exact (err_of_hsLine hhs).imp_right fun ⟨ht, hreached⟩ =>
      ⟨.handshakeTimeout, ht, sendsAt_ne_none_of_line hl hop, exists_bound_of_reached hreached⟩
  all_goals obtain rfl := Host.Outcome.next.inj hline
  case checkLanes n =>
    split
    · exact .inl rfl
    · next hrange => exact .inr ⟨_, rfl, hcause (Bool.eq_false_iff.2 hrange)⟩
  case checkLength n =>
    split
    · exact .inl rfl
    · next hrange => exact .inr ⟨_, rfl, hcause (Bool.eq_false_iff.2 hrange)⟩
  case raise k => exact .inr ⟨k, rfl, hcause⟩
  all_goals exact .inl rfl

/-- Settles O36: a step that changes ERR is an abort, and its code tells the cause. -/
theorem onlyTheAbortWritesErr : Obligations.OnlyTheAbortWritesErr := by
  intro i s t hstep hne
  obtain ⟨k, rfl, hcause⟩ := (errCause_of_exec hstep).resolve_left hne
  refine ⟨rfl, ?_⟩
  cases k with
  | invalidConfig => exact .inl ⟨rfl, hcause⟩
  | handshakeTimeout => exact .inr (.inl ⟨rfl, hcause⟩)
  | busError => exact .inr (.inr (.inl ⟨rfl, hcause⟩))
  | illegalCommand => exact .inr (.inr (.inr (.inl ⟨rfl, hcause⟩)))
  | invalidLength => exact .inr (.inr (.inr (.inr ⟨rfl, hcause⟩)))

/-! ## The issue of each access of a handshake (R121) -/

section
variable {s : State} {bytes : List Byte} {b : Byte} (h : Sending s bytes b) (hp : s.port = .idle)
include h hp

/-- SET up to the issue of its write: the shadow is saved, and LP_SEND set in it. -/
theorem Sending.runs_issue_set (hs : s.upc.hs = .setSave) : Runs 3 s { s with
    upc := ⟨s.upc.line, s.upc.txIdx, .wait1Clear⟩, hsSaved := s.dsiCtl, dsiCtl := s.dsiCtl ||| Config.lpSendMask
    port := .req (.write .dsiCtl (s.dsiCtl ||| Config.lpSendMask)) } := by
  have hsave : step s = .next (gotoHs .setShadow { s with hsSaved := s.dsiCtl }) := by
    rw [h.step_of_idle hp, hsLine, hs]
  exact runs_succ hsave (runs_succ (Sending.step_of_idle (h.update ..) hp)
    (runs_one (Sending.step_of_idle (h.update ..) hp)))

/-- The issue of a ready read. -/
theorem Sending.runs_issue_read {w : HsWait} (hs : s.upc.hs = w.read) : Runs 1 s { s with
    upc := ⟨s.upc.line, s.upc.txIdx, w.test⟩, port := .req .readReady } :=
  runs_one ((h.step_of_idle hp).trans (hsLine_read w _ _ hs))

/-- The issue of the write of LP_TX. -/
theorem Sending.runs_issue_tx (hs : s.upc.hs = .txWrite) : Runs 1 s { s with
    upc := ⟨s.upc.line, s.upc.txIdx, .wait2Clear⟩, port := .req (.write .lpTx (txWord b)) } :=
  runs_one (by rw [h.step_of_idle hp, hsLine, hs]; rfl)

/-- RESTORE up to the issue of its write: the saved shadow is put back. -/
theorem Sending.runs_issue_restore (hs : s.upc.hs = .restoreShadow) : Runs 2 s { s with
    upc := afterByte bytes.length s.upc.line s.upc.txIdx, dsiCtl := s.hsSaved
    port := .req (.write .dsiCtl s.hsSaved) } := by
  have hrestore : step s = .next (gotoHs .restoreWrite { s with dsiCtl := s.hsSaved }) := by
    rw [h.step_of_idle hp, hsLine, hs]
  have hissue : step (gotoHs .restoreWrite { s with dsiCtl := s.hsSaved }) =
      .next (nextByte bytes.length (issue (.write .dsiCtl s.hsSaved)
        (gotoHs .restoreWrite { s with dsiCtl := s.hsSaved }))) :=
    Sending.step_of_idle (h.update ..) hp
  rw [nextByte_eq] at hissue
  exact runs_succ hrestore (runs_one hissue)

/-- A wait that still goes on: after its not-ready reads the CORE is about to read again (R122). -/
theorem Sending.runs_wait_goesOn {w : HsWait} {reads rd : List Word} {pa : List Bool} (hs : s.upc.hs = w.clear)
    (hgoes : WaitGoesOn reads) (ha : s.portAnswers = List.replicate reads.length true ++ pa)
    (hd : s.readDraws = reads ++ rd) : Runs (1 + 5 * reads.length) s { s with
      upc := ⟨s.upc.line, s.upc.txIdx, w.read⟩, pollN := reads.length, portAnswers := pa, readDraws := rd
      trace := s.trace ++ reads.map rEvent } := by
  obtain ⟨hnots, hbound⟩ := hgoes
  have hclear : step s = .next (gotoHs w.read { s with pollN := 0 }) := (h.step_of_idle hp).trans (hsLine_clear w _ _ hs)
  have hreads := Sending.runs_waiting (s := gotoHs w.read { s with pollN := 0 }) (h.update ..) hp rfl ha hd hnots
    fun k hle _ => pollBoundReached_eq_false fun n hn => by
      rw [hn] at hbound
      simpa using Nat.lt_of_le_of_lt hle hbound
  simpa using runs_add (runs_one hclear) hreads

/-- From SET to the beginning of WAIT2: SET, WAIT1 that ends ready, and WRITE (R121). -/
theorem Sending.runs_to_wait2 {r1 rd : List Word} {pa : List Bool} (hs : s.upc.hs = .setSave) (h1 : WaitEndsReady r1)
    (ha : s.portAnswers = true :: (List.replicate r1.length true ++ true :: pa)) (hd : s.readDraws = r1 ++ rd) :
    Runs (5 + (5 * r1.length + 3)) s { s with
      upc := ⟨s.upc.line, s.upc.txIdx, .wait2Clear⟩, hsSaved := s.dsiCtl, dsiCtl := s.dsiCtl ||| Config.lpSendMask
      pollN := r1.length - 1, port := .idle, portAnswers := pa, readDraws := rd
      ctrl := (s.ctrl.set .dsiCtl (s.dsiCtl ||| Config.lpSendMask)).set .lpTx (txWord b)
      trace := s.trace ++ [wEvent .dsiCtl (s.dsiCtl ||| Config.lpSendMask)] ++ r1.map rEvent ++
        [wEvent .lpTx (txWord b)] } :=
  runs_add (h.runs_set hp hs ha) (runs_add (Sending.runs_wait (w := .wait1) (h.update ..) rfl rfl h1 rfl hd)
    (Sending.runs_tx (h.update ..) rfl rfl rfl))

end

/-! ## A BusError in each phase of a handshake (R204, R205) -/

/-- A run up to the issue of an access that the PORT refuses goes on to the abort. -/
theorem busError_of_issued {s u : State} {a : Access} {pa : List Bool} {j : Nat} (hruns : Runs j s u)
    (hrst : u.rst = false) (hst : u.st = .exec) (htimer : u.timer = none) (hport : u.port = .req a)
    (hanswers : u.portAnswers = false :: pa) :
    ∃ k t, Runs k s t ∧ t.st = .idle ∧ t.isDone = true ∧ t.err = 3 ∧ t.hsSaved = u.hsSaved ∧ t.dsiCtl = u.dsiCtl ∧
      t.result = u.result ∧ t.portAnswers = pa ∧ t.trace = u.trace ++ [failedEvent a] := by
  obtain ⟨v, hrefuse, habort⟩ := steps_of_refused hrst hst htimer hport hanswers
  exact ⟨_, _, runs_add hruns (runs_succ hrefuse (runs_one habort)), rfl, rfl, rfl, rfl, rfl, rfl, rfl, rfl⟩

/-- The accesses of a handshake up to the end of WAIT1's reads. -/
theorem take_handshakeTrace_wait1 (v : Word) (w1 w2 : List Word) (b : Byte) :
    (handshakeTrace v w1 w2 b).take (1 + w1.length) = [wEvent .dsiCtl (v ||| Config.lpSendMask)] ++ w1.map rEvent := by
  rw [handshakeTrace, List.append_assoc, List.append_assoc]
  exact List.take_left' (by simp [Nat.add_comm])

/-- The accesses of a handshake up to the end of WAIT2's reads. -/
theorem take_handshakeTrace_wait2 (v : Word) (w1 w2 : List Word) (b : Byte) :
    (handshakeTrace v w1 w2 b).take (2 + (w1.length + w2.length)) =
      [wEvent .dsiCtl (v ||| Config.lpSendMask)] ++ w1.map rEvent ++ [wEvent .lpTx (txWord b)] ++ w2.map rEvent :=
  List.take_left' (by simp; omega)

/-- Settles O55: the phases before the failing access one after the other, then the access and its abort. -/
theorem shadowAfterAnAbortedHandshake : Obligations.ShadowAfterAnAbortedHandshake := by
  intro s bytes b pa w1 w2 rd phase oks hat hfails hd ha
  have h := sending_of_atByte hat
  have hp := hat.free.1
  have hshort {k : Nat} (hoks : oks = 1 + k) : s.portAnswers = true :: (List.replicate k true ++ false :: pa) := by
    rw [ha, hoks, List.replicate_add, List.append_assoc]
    rfl
  have hlong (hoks : oks = 2 + (w1.length + w2.length)) : s.portAnswers = true :: (List.replicate w1.length true ++
      (true :: (List.replicate w2.length true ++ false :: pa))) := by
    rw [ha, hoks, show 2 + (w1.length + w2.length) = 1 + (w1.length + (1 + w2.length)) by omega]
    simp only [List.replicate_add, List.append_assoc]
    rfl
  have hd' := hd.trans (List.append_assoc ..)
  cases phase with
  | set =>
    obtain ⟨-, -, rfl⟩ := hfails
    simpa using busError_of_issued (a := phaseAccess .set s.dsiCtl b) (h.runs_issue_set hp hat.set) h.rst h.st h.timer rfl ha
  | wait1 =>
    obtain ⟨hgoes, rfl, hoks⟩ := hfails
    have hissued := runs_add (h.runs_set hp hat.set (hshort hoks))
      (runs_add (Sending.runs_wait_goesOn (w := .wait1) (h.update ..) rfl rfl hgoes rfl hd')
        (Sending.runs_issue_read (w := .wait1) (h.update ..) rfl rfl))
    rw [hoks, take_handshakeTrace_wait1]
    simpa using busError_of_issued (a := phaseAccess .wait1 s.dsiCtl b) hissued h.rst h.st h.timer rfl rfl
  | write =>
    obtain ⟨hends, rfl, hoks⟩ := hfails
    have hissued := runs_add (h.runs_set hp hat.set (hshort hoks))
      (runs_add (Sending.runs_wait (w := .wait1) (h.update ..) rfl rfl hends rfl hd')
        (Sending.runs_issue_tx (h.update ..) rfl rfl))
    rw [hoks, take_handshakeTrace_wait1]
    simpa using busError_of_issued (a := phaseAccess .write s.dsiCtl b) hissued h.rst h.st h.timer rfl rfl
  | wait2 =>
    obtain ⟨hends, hgoes, hoks⟩ := hfails
    have hissued := runs_add (h.runs_to_wait2 hp hat.set hends (hlong hoks) hd')
      (runs_add (Sending.runs_wait_goesOn (w := .wait2) (h.update ..) rfl rfl hgoes rfl rfl)
        (Sending.runs_issue_read (w := .wait2) (h.update ..) rfl rfl))
    rw [hoks, take_handshakeTrace_wait2]
    simpa using busError_of_issued (a := phaseAccess .wait2 s.dsiCtl b) hissued h.rst h.st h.timer rfl rfl
  | restore =>
    obtain ⟨hends1, hends2, hoks⟩ := hfails
    have hissued := runs_add (h.runs_to_wait2 hp hat.set hends1 (hlong hoks) hd')
      (runs_add (Sending.runs_wait (w := .wait2) (h.update ..) rfl rfl hends2 rfl rfl)
        (Sending.runs_issue_restore (h.update ..) rfl rfl))
    rw [hoks, take_handshakeTrace_wait2]
    simpa using busError_of_issued (a := phaseAccess .restore s.dsiCtl b) hissued h.rst h.st h.timer rfl rfl

end Sys2Proof.Machine

/-! # Proofs: reset and hazards (spec/70_reset_and_hazards.md)

The reset values and the level `RST` (R230), what `RST` does to the CONTROLLER's registers (R231, R232), and the completion
of every wait in every endless history (R242). -/

namespace Sys2Proof.Machine

/-! ## The reset values (R230) -/

theorem reset_atReset : AtReset State.reset :=
  ⟨rfl, rfl, rfl, rfl, rfl, rfl, rfl⟩

/-- Settles O39: the state after reset has the values that `RST` gives. -/
theorem resetValues : Obligations.ResetValues := by
  obtain ⟨hst, hready, hbusy, hdone, herr, hresult, hshadow⟩ := reset_atReset
  exact ⟨hst, hready, hbusy, hdone, herr, hresult, hshadow⟩

/-- The release of `RST` changes no value that `RST` gave (R230). -/
theorem AtReset.releaseReset {s : State} (h : AtReset s) : AtReset (releaseReset s) :=
  ⟨h.st, h.cmdReady, h.busy, h.isDone, h.err, h.result, h.dsiCtl⟩

/-- A step while `RST` is high does what the assertion of `RST` does (R230). -/
theorem step_eq_raiseReset {s : State} (hrst : s.rst = true) : step s = .next (raiseReset s) := by
  obtain ⟨c, n, e⟩ := applyReset_cases s
  rw [step_of_rst hrst, raiseReset, e, hrst]

/-- Settles O40: the assertion of `RST` gives the reset values, so does each step while it is high, the release keeps them,
and by the invariant every reachable state has them. -/
theorem rstGivesTheResetValues : Obligations.RstGivesTheResetValues := by
  refine ⟨fun s => ?_, fun s hrst => ?_, fun s hreach hrst => ?_⟩
  · exact ⟨rfl, raiseReset_atReset s, rfl, (raiseReset_atReset s).releaseReset⟩
  · exact ⟨raiseReset s, step_eq_raiseReset hrst, rfl, raiseReset_atReset s, (raiseReset_atReset s).releaseReset⟩
  · have hreset := (inv_reach inv_reset hreach).atReset hrst
    exact ⟨hreset, hreset.releaseReset⟩

/-! ## The access that `RST` interrupts (R231, R232) -/

/-- The access `a` is issued, and the CONTROLLER has not performed it. -/
def InFlight (s : State) (a : Access) : Prop := s.port = .req a ∨ s.port = .atCtrl a

/-- `RST` makes the register at the offset of an access in flight a draw, and no other (R232). -/
theorem raiseReset_get_of_inFlight {s : State} {a : Access} (h : InFlight s a) (q : Reg) :
    (raiseReset s).ctrl.get q = if Config.off q = a.offset then Config.unknownReg s.drawN else s.ctrl.get q := by
  have hlost : loseInFlight s = loseTarget a s := by
    rcases h with hport | hport <;> simp only [loseInFlight, hport]
  rw [← CtrlRegs.get_clobber, raiseReset, applyReset, hlost]
  rfl

/-- With no access in flight `RST` keeps the CONTROLLER's registers (R231). -/
theorem raiseReset_ctrl_of_not_inFlight {s : State} (h : ∀ a, ¬ InFlight s a) : (raiseReset s).ctrl = s.ctrl := by
  have hkept : loseInFlight s = s := by
    cases hport : s.port with
    | req a => exact absurd (.inl hport) (h a)
    | atCtrl a => exact absurd (.inr hport) (h a)
    | idle | got v | failed a => simp only [loseInFlight, hport]
  rw [raiseReset, applyReset, hkept]

/-- A register that is not the target of an access in flight keeps its value (R231, R232). -/
theorem raiseReset_get_of_not_target {s : State} {q : Reg} (h : ∀ a, InFlight s a → Config.off q ≠ a.offset) :
    (raiseReset s).ctrl.get q = s.ctrl.get q := by
  by_cases hflight : ∃ a, InFlight s a
  · obtain ⟨a, ha⟩ := hflight
    rw [raiseReset_get_of_inFlight ha, if_neg (h a ha)]
  · rw [raiseReset_ctrl_of_not_inFlight (not_exists.1 hflight)]

/-- Settles O41: a step while `RST` is high is the assertion of `RST`, which loses the target of an access in flight and
keeps every other register, the inputs and the trace. -/
theorem rstTouchesNoRegister : Obligations.RstTouchesNoRegister := by
  intro s t ht
  have hraise : t = raiseReset s := by
    rcases ht with rfl | ⟨hrst, hstep⟩
    · rfl
    · rw [step_eq_raiseReset hrst] at hstep
      exact (Host.Outcome.next.inj hstep).symm
  subst hraise
  have hkeeps : (raiseReset s).trace = s.trace ∧ (raiseReset s).cmdValid = s.cmdValid ∧
      (raiseReset s).hostIn = s.hostIn := by
    obtain ⟨c, n, e⟩ := raiseReset_cases s
    rw [e]
    exact ⟨rfl, rfl, rfl⟩
  obtain ⟨htrace, hvalid, hhost⟩ := hkeeps
  refine ⟨⟨rfl, rfl⟩, htrace, hvalid, hhost, fun q hq => raiseReset_get_of_not_target hq, fun q a ha heq => ?_⟩
  rw [raiseReset_get_of_inFlight ha, if_pos heq]

/-! ## Every wait completes (R239, R242) -/

/-- From `s` to `t` a wait of `d` has ended: it has completed, or `RST` has ended it. -/
def WaitEnded (d : DelayTag) (s t : State) : Prop :=
  t.timer = none ∧ (t.trace = s.trace ++ [.delay d] ∨ (t.rst = true ∧ t.trace = s.trace))

/-- From `s` to `t` the TIMER has counted wait `w` down: fewer steps are left, of a number that is known from then on. -/
def CountedDown (w : Wait) (s t : State) : Prop :=
  t.trace = s.trace ∧ ∃ k, t.timer = some ⟨w.tag, some k⟩ ∧ ∀ j, w.left = some j → k < j

/-- What a wait comes to may be told from an earlier state with the same trace. -/
theorem WaitEnded.of_trace_eq {d : DelayTag} {r s t : State} (h : WaitEnded d s t) (htrace : s.trace = r.trace) :
    WaitEnded d r t := by
  rwa [WaitEnded, htrace] at h

theorem CountedDown.of_trace_eq {w : Wait} {r s t : State} (h : CountedDown w s t) (htrace : s.trace = r.trace) :
    CountedDown w r t := by
  rwa [CountedDown, htrace] at h

/-- What the TIMER does with `n` steps left: it completes the wait, or lets it go on with fewer (R239). -/
theorem tickTimer_cases (d : DelayTag) (n : Nat) (s : State) :
    tickTimer d n s = { s with timer := none, trace := s.trace ++ [.delay d] } ∨
    ∃ k < n, tickTimer d n s = { s with timer := some ⟨d, some k⟩ } := by
  cases n with
  | zero => exact .inl rfl
  | succ n => exact .inr ⟨n, n.lt_succ_self, rfl⟩

/-- The TIMER's step completes a wait or counts it down (R239, R242). -/
theorem timerStep_ends_or_countsDown {s : State} {w : Wait} (ht : s.timer = some w) :
    WaitEnded w.tag s (timerStep s) ∨ CountedDown w s (timerStep s) := by
  obtain ⟨d, _ | j⟩ := w
  · rcases timerStep_cases ht with ⟨tw, n, e⟩ | ⟨k, tw, n, e⟩ <;> rw [e]
    · exact .inl ⟨rfl, .inl rfl⟩
    · exact .inr ⟨rfl, k, rfl, nofun⟩
  · rw [timerStep_counts ht]
    rcases tickTimer_cases d j s with e | ⟨k, hk, e⟩ <;> rw [e]
    · exact .inl ⟨rfl, .inl rfl⟩
    · exact .inr ⟨rfl, k, rfl, fun i hi => Option.some.inj hi ▸ hk⟩

/-- While a wait runs `RST` is not asserted: `RST` has ended the command and its wait (R230). -/
theorem Inv.rst_eq_false_of_timer {s : State} (h : Inv s) {w : Wait} (ht : s.timer = some w) : s.rst = false := by
  have hst := h.exec_of_not_coreFree (fun hfree => by simp [hfree.2] at ht)
  refine Bool.eq_false_iff.2 fun hrst => ?_
  simp [(h.atReset hrst).st] at hst

/-- While a wait runs every step is the TIMER's (R63, R239). -/
theorem step_ends_or_countsDown {s t : State} {w : Wait} (h : Inv s) (ht : s.timer = some w) (hstep : step s = .next t) :
    WaitEnded w.tag s t ∨ CountedDown w s t := by
  rw [step_of_timer (h.rst_eq_false_of_timer ht) (h.oneOutstanding (by simp [ht])) ht] at hstep
  obtain rfl := Host.Outcome.next.inj hstep
  exact timerStep_ends_or_countsDown ht

/-- A move of the outside world ends a wait by `RST`, or leaves the wait and the trace as they are (R230). -/
theorem outsideMove_ends_or_keeps_wait {s t : State} (hmove : OutsideMove s t) (d : DelayTag) :
    WaitEnded d s t ∨ (t.timer = s.timer ∧ t.trace = s.trace) := by
  obtain rfl | ⟨r, b, c, q, p, v, l, rfl⟩ := outsideMove_cases hmove
  · obtain ⟨c, n, e⟩ := raiseReset_cases s
    exact .inl (by rw [e]; exact ⟨rfl, .inr ⟨rfl, rfl⟩⟩)
  · exact .inr ⟨rfl, rfl⟩

/-- Every state of a history that begins with the invariant meets it. -/
theorem History.inv {f : Nat → State} (h : History f) (h0 : Inv (f 0)) (n : Nat) : Inv (f n) := by
  induction n with
  | zero => exact h0
  | succ n ih =>
    rcases h.moves n with hstep | hmove
    · exact inv_step ih hstep
    · exact inv_outsideMove ih hmove

section
variable {f : Nat → State} (h : History f) (h0 : Inv (f 0))
include h h0

/-- When the machine steps `i` moves later, the wait has then ended or been counted down: the moves of the outside world
before that step leave it running. -/
theorem History.wait_until_step {i n : Nat} {w : Wait} (ht : (f n).timer = some w)
    (hstep : step (f (n + i)) = .next (f (n + i + 1))) :
    ∃ m, n < m ∧ (WaitEnded w.tag (f n) (f m) ∨ CountedDown w (f n) (f m)) := by
  induction i generalizing n with
  | zero => exact ⟨n + 1, n.lt_succ_self, step_ends_or_countsDown (h.inv h0 n) ht hstep⟩
  | succ i ih =>
    rcases h.moves n with hnow | hmove
    · exact ⟨n + 1, n.lt_succ_self, step_ends_or_countsDown (h.inv h0 n) ht hnow⟩
    · rcases outsideMove_ends_or_keeps_wait hmove w.tag with hend | ⟨htimer, htrace⟩
      · exact ⟨n + 1, n.lt_succ_self, .inl hend⟩
      · obtain ⟨m, hm, hor⟩ := ih (htimer.trans ht) (by rwa [Nat.add_right_comm n 1 i])
        exact ⟨m, by omega, hor.imp (·.of_trace_eq htrace) (·.of_trace_eq htrace)⟩

/-- The TIMER's turn comes again and again, so a running wait ends or is counted down (R242). -/
theorem History.wait_goes_on {n : Nat} {w : Wait} (ht : (f n).timer = some w) :
    ∃ m, n < m ∧ (WaitEnded w.tag (f n) (f m) ∨ CountedDown w (f n) (f m)) := by
  obtain ⟨m, hm, hstep⟩ := h.steps n
  obtain ⟨i, rfl⟩ := Nat.exists_eq_add_of_le hm
  exact h.wait_until_step h0 ht hstep

/-- A wait with a known number of steps left ends, by induction on that number (R242). -/
theorem History.counted_wait_ends {k n : Nat} {d : DelayTag} (ht : (f n).timer = some ⟨d, some k⟩) :
    ∃ m, n < m ∧ WaitEnded d (f n) (f m) := by
  induction k using Nat.strong_induction_on generalizing n with
  | _ k ih =>
    obtain ⟨m, hm, hend | ⟨htrace, j, htimer, hlt⟩⟩ := h.wait_goes_on h0 ht
    · exact ⟨m, hm, hend⟩
    · obtain ⟨m', hm', hend⟩ := ih j (hlt k rfl) htimer
      exact ⟨m', hm.trans hm', hend.of_trace_eq htrace⟩

/-- A running wait ends: the TIMER's first step chooses how many are left, and the rest count them down (R242). -/
theorem History.wait_ends {n : Nat} {w : Wait} (ht : (f n).timer = some w) :
    ∃ m, n < m ∧ WaitEnded w.tag (f n) (f m) := by
  obtain ⟨m, hm, hend | ⟨htrace, k, htimer, -⟩⟩ := h.wait_goes_on h0 ht
  · exact ⟨m, hm, hend⟩
  · obtain ⟨m', hm', hend⟩ := h.counted_wait_ends h0 htimer
    exact ⟨m', hm.trans hm', hend.of_trace_eq htrace⟩

end

/-- Settles O57: the machine steps again and again, and every step while a wait runs is the TIMER's, whose number of steps
for the wait is finite. -/
theorem everyWaitCompletes : Obligations.EveryWaitCompletes :=
  fun _ hhistory hinv _ _ htimer => hhistory.wait_ends hinv htimer

end Sys2Proof.Machine
